-- ==== Sys2Proof/Word.lean ====
section
/-! DEFINITION. The fixed widths of the spec (00_scope, Conventions; 12 Formats): words, half words, bytes.
Only what the spec reads as bits is a bit vector: port words, time-counter values, fields of messages. -/

namespace Sys2Proof

/-- A 32-bit word: a port word (R1), a time-counter value (R3), a counter that wraps at 2^32. -/
abbrev Word := BitVec 32

/-- A 16-bit field (u16), and a node value (00_scope, Scope of this manual). -/
abbrev Half := BitVec 16

/-- A byte (u8). -/
abbrev Byte := BitVec 8

end Sys2Proof
end

