-- ==== Sys2Proof/Syntax.lean ====
section
/-! DEFINITION. The commands: one constructor of `Instr` for each row of spec/opcode_table.json, and the types of
their operands. -/

namespace Sys2Proof

/-- A display pipe (00_scope): pipe 0 is the cluster, pipe 1 the centre screen. -/
inductive Pipe where
  | p0 | p1
  deriving DecidableEq, Repr

/-- A touch surface (00_scope): surface 0 is the in-cell array, surface 1 the pad. -/
inductive Surface where
  | s0 | s1
  deriving DecidableEq, Repr

/-- A mode record as a LIST carries it (2.1, 12.6), at the widths of 12.6. -/
structure ModeRecord where
  v     : Half
  vb    : Byte
  wmax  : Byte
  hmin  : Half
  lwMin : Word
  fmax  : Word
  deriving DecidableEq, Repr

/-- The commands of the block. A request decision (SET_OFFERS to CLEAR_FAULTS) has no operand: its arguments are the
request record the engine holds (R10). -/
inductive Instr where
  /-- POR_N rises (R4). -/
  | powerOnReset
  /-- A host write of `value` to CONTROL (R3, R4). -/
  | softReset (value : Word)
  /-- Initialisation ends (R5). -/
  | initialisationCompletion
  /-- A host write of `value` to NOTICE (R16). -/
  | noticeWrite (value : Word)
  /-- A host write of `value` to NOTICE_MASK (R17). -/
  | noticeMaskWrite (value : Word)
  /-- A host write to IDENT, TIME or an unmapped port address (R1, R3). -/
  | registerWriteDiscarded (address : BitVec 24) (value : Word)
  /-- A host write of a Work Memory word (R2). -/
  | hostWorkMemoryWrite (address : BitVec 16) (value : Word)
  /-- A host write of the code word of a cell (R6). -/
  | cellCodeWordWrite (cell : Fin 16) (value : Word)
  /-- A host write of 0 to the claim word of a report block (R8). -/
  | claimReturn (block : Fin 16)
  /-- The RQI takes the cell at the head of the intake queue (R10). -/
  | requestTake
  /-- The RQI writes a completion (R13). -/
  | completionWrite
  | setOffers
  | negotiate
  | admitPipe
  | pipeRestart
  | setQuiet
  | urgentBand
  | frameNow
  | setReference
  | setSurface
  | surfaceEnable
  | setBank
  | setEventPins
  | clearFaults
  /-- Bytes arrive from the panel that fail a check of R18. -/
  | messageRejected (pipe : Pipe) (bytes : List Byte)
  /-- A LIST that passed R18 arrives; its count is the number of its records. -/
  | list (pipe : Pipe) (modes : List ModeRecord)
  /-- An ACK arrives (R27, R29). -/
  | ack (pipe : Pipe) (echoType echoValue : Byte)
  /-- A NAK arrives (R27, R29). -/
  | nak (pipe : Pipe)
  /-- A PANEL_FAULT arrives (R31). -/
  | panelFault (pipe : Pipe) (code : Byte)
  /-- The last byte of the message being sent has been sent (R19). -/
  | messageSent (pipe : Pipe)
  | probeTimeout (pipe : Pipe)
  | selectTimeout (pipe : Pipe)
  | frameAckTimeout (pipe : Pipe)
  | quietIntervalExpiry (pipe : Pipe)
  | alignedStart (pipe : Pipe)
  | alignmentDeadline (pipe : Pipe)
  /-- A WINDOW slot ends and the next BURST starts (R89, R91). -/
  | burstStart (pipe : Pipe)
  /-- A BURST slot of pipe 1 ends and a WINDOW starts (R90). -/
  | windowStart
  | planPoint (pipe : Pipe)
  | trimStart (pipe : Pipe)
  | trimEnd (pipe : Pipe)
  | stretchLimit (pipe : Pipe)
  | refsyncEdge
  | generatedPulse
  | presenceAbsent
  | silenceLimit (pipe : Pipe)
  | padTick
  | retuneEnd
  /-- The scan end; `nodes` are the node values the Sense Bank delivered, row-major in scan order (R140). -/
  | scanCompletion (nodes : List Half)
  | requestExpiry (surface : Surface)
  | writeCompletion
  | pinPulseEnd (pin : Fin 4)
  deriving DecidableEq, Repr

end Sys2Proof
end

