-- ==== Sys2Proof/Decode.lean ====
section
/-! DEFINITION. The table's words. No row of spec/opcode_table.json gives a command any bits, so no word spells one. -/

namespace Sys2Proof

/-- The command that a word spells by the table's bits: none, for any word of any length. -/
def decodeTableWord (_nbits _w : Nat) : Option Instr := none

end Sys2Proof
end

