-- ==== Sys2Proof/Config.lean ====
section
/-! DEFINITION. The free values: what the spec leaves open and the part nevertheless does. Each is a constant with
no body, applied to a number drawn from the plain counter `State.free`, so no proof can see what it is. -/

namespace Sys2Proof.Config

/-- Which of the events that may come next on an empty queue comes next (00_scope, R10: either order). Log 2, log 3. -/
opaque schedule : Nat → Nat

/-- In which order completions of several owners, handed over in one event, join the completion list (R12). Log 10. -/
opaque handoverOrder : Nat → Nat

/-- In which order one reference pulse reaches the two pipes when it starts both runners (R107). Log 11. -/
opaque pulseOrder : Nat → Nat

/-- How many words or steps of a structure being written have been written (R4, R14, R169). Logs 6, 7, 8. -/
opaque writeProgress : Nat → Nat

/-- A node value the Sense Bank delivers (00_scope: an unsigned 16-bit count): the draw, and the position in the scan. Log 9. -/
opaque nodeValue : Nat → Nat → Half

/-- The port address at which a transaction goes on after the word at 0xFF_FFFC, the last a 24-bit address reaches (R1). Log 33. -/
opaque addressAfterTop : BitVec 24

end Sys2Proof.Config
end

