-- ==== Sys2Proof/Machine/State.lean ====
section
/-! DEFINITION. State as plain data: every register, queue, counter, mode and pin assignment the spec gives the part,
each with its rule; the outcomes' reasons; and the machine right after power-on reset. -/

namespace Sys2Proof.Machine

/-- No command stops the part: the spec gives every command an effect in every state, and every port address an
answer (R1). The type has no constructor, so no step can answer a fault (safe: nothing is hidden by one). -/
inductive Fault
  deriving DecidableEq, Repr

/-- Why a command is turned away without a meaning. -/
inductive Refusal where
  /-- Raised by `exec` alone, for a row of the table that has no meaning yet (safe: nothing can be proved of a run
  through it). No arm of this model raises it. -/
  | notModelled (mnemonic : String)
  deriving DecidableEq, Repr

/-- What a step answers. -/
abbrev Result (σ : Type) := Host.Outcome σ Fault Refusal

/-- One value for each pipe. -/
structure PerPipe (α : Type) where
  p0 : α
  p1 : α
  deriving DecidableEq, Repr

/-- One value for each surface. -/
structure PerSurface (α : Type) where
  s0 : α
  s1 : α
  deriving DecidableEq, Repr

/-- Work Memory: (address, byte) pairs, addresses rising, no zero byte (R4: power-on reset clears it). -/
abbrev Memory := List Host.Cell

/-- NOTICE or NOTICE_MASK: the four flags of R16. -/
structure Notices where
  cell   : Bool
  report : Bool
  pipe   : Bool
  fault  : Bool
  deriving DecidableEq, Repr

/-- The states of a cell (R6). -/
inductive CellState where
  | hostOwned | queued | taken | parked
  deriving DecidableEq, Repr

/-- Status codes (1.8). -/
inductive Status where
  | done | doneLate | doneFallback | unknownKind | badTarget | badValue | wrongState | busy | aborted | abandoned
  deriving DecidableEq, Repr

/-- A parked request, as its owner holds it: its cell and its tag (R11, R13). -/
structure Parked where
  cell : Fin 16
  tag  : BitVec 24
  deriving DecidableEq, Repr

/-- A completion (R13): the item index of a BAD_VALUE, the result words of a DONE. -/
structure Completion where
  cell    : Fin 16
  tag     : BitVec 24
  status  : Status
  item    : Option Nat
  results : List Word
  deriving DecidableEq, Repr

/-- The request record of a take (R10): the cell and its 256 bytes as they stood. -/
structure RequestRecord where
  cell  : Fin 16
  image : List Byte
  deriving DecidableEq, Repr

/-- The RQI's engine (R9), with the instant its activity began. -/
inductive Engine where
  | idle
  | taking (request : RequestRecord) (since : Word)
  | writing (completion : Completion) (since : Word)
  deriving DecidableEq, Repr

/-- Request Intake (R7, R9, R12). -/
structure Rqi where
  intake      : List (Fin 16)
  completions : List Completion
  engine      : Engine
  deriving DecidableEq, Repr

/-- The cadences of a contract (chapter 3). -/
inductive Cadence where
  | free | lockedRef | lockedPeer | relaxed
  deriving DecidableEq, Repr

/-- An offer (3.2). -/
structure Offer where
  f       : Nat
  lw      : Nat
  fr      : Nat
  offset  : Nat
  trimMax : Nat
  w       : Nat
  cadence : Cadence
  deriving DecidableEq, Repr

/-- Why a contract was made (R45, R46). -/
inductive Reason where
  | offer | noOffers | noFit
  deriving DecidableEq, Repr

/-- A contract record (R46). -/
structure Contract where
  number     : Word
  offerIndex : Nat
  modeIndex  : Nat
  v          : Nat
  vb         : Nat
  n          : Nat
  hmin       : Nat
  f          : Nat
  h          : Nat
  q          : Nat
  w          : Nat
  lw         : Nat
  cadence    : Cadence
  fr         : Nat
  offset     : Nat
  trimMax    : Nat
  clamped    : Bool
  raised     : Bool
  fallback   : Bool
  reason     : Reason
  deriving DecidableEq, Repr

/-- A slot record of a frame plan (R56), with the fields its kind has. -/
inductive Slot where
  | burst (start length firstLine lineCount : Nat)
  | window (start length ordinal shift : Nat) (noisy : Bool)
  | blank (start length firstLine lineCount : Nat)
  | trim (start length : Nat)
  deriving DecidableEq, Repr

/-- A frame plan (R56): header and slots. -/
structure Plan where
  frameNumber    : Word
  contractNumber : Word
  f              : Nat
  h              : Nat
  q              : Nat
  w              : Nat
  lw             : Nat
  v              : Nat
  vb             : Nat
  cadence        : Cadence
  slots          : List Slot
  deriving DecidableEq, Repr

/-- NEGOTIATE phase (R38). -/
inductive Phase where
  | none | staged | selected | installed
  deriving DecidableEq, Repr

/-- Link states (R20). -/
inductive LinkState where
  | off | probing | held | selecting | active | recovery
  deriving DecidableEq, Repr

/-- Stop reasons (chapter 2, Summary of link transitions). -/
inductive StopReason where
  | none | hostRestart | noAnswer | badList | selectRefused | selectTimeout | ackMissed | panelFault
  deriving DecidableEq, Repr

/-- The outstanding message and its echo value (R20). -/
inductive Outstanding where
  | select (mode : Byte)
  | frame (number : Byte)
  deriving DecidableEq, Repr

/-- A part-to-panel message (2.1). -/
inductive TxMessage where
  | probe
  | select (mode : Byte)
  | frame (number windows : Byte)
  | hold (length : Word)
  deriving DecidableEq, Repr

/-- A message waiting to be sent; `supervised`: the answer timer is to start when its last byte has been sent (R19). -/
structure QueuedMessage where
  message    : TxMessage
  supervised : Bool
  deriving DecidableEq, Repr

/-- The message being sent and the instant its last byte will have been sent (R19). -/
structure Sending where
  message    : TxMessage
  supervised : Bool
  endsAt     : Word
  deriving DecidableEq, Repr

/-- A Link Controller (R19, R20, R33). -/
structure LinkCtl where
  state          : LinkState
  modes          : List ModeRecord
  probeCount     : Nat
  malformedSeen  : Bool
  missedAcks     : Nat
  recoveryCount  : Nat
  stopReason     : StopReason
  panelFault     : Byte
  outstanding    : Option Outstanding
  parkedAdmit    : Option Parked
  answerDeadline : Option Word
  quietEnd       : Option Word
  sending        : Option Sending
  waiting        : List QueuedMessage
  /-- The model's own: the messages sent whole, oldest first (log 19). -/
  sent           : List TxMessage
  deriving DecidableEq, Repr

/-- A Plan Builder (R38, R58). -/
structure PlanBuilder where
  offers    : List Offer
  autoAdmit : Bool
  contract  : Option Contract
  selected  : Option Contract
  counter   : Word
  phase     : Phase
  negotiate : Option Parked
  nextPlan  : Option Plan
  deriving DecidableEq, Repr

/-- A pending urgent band (R123) and the request that waits for it. -/
structure Band where
  request    : Parked
  firstLine  : Nat
  lastLine   : Nat
  deadline   : Nat
  intake     : Word
  serving    : Option Word
  wholeFrame : Bool
  deriving DecidableEq, Repr

/-- Runner states (5.1). -/
inductive RunnerState where
  | stopped | aligning | running | stretch
  deriving DecidableEq, Repr

/-- A Frame Runner with its urgent band logic (R81, R93, R95, R123). -/
structure Runner where
  state         : RunnerState
  plan          : Option Plan
  slot          : Nat
  frameNumber   : Word
  frameStart    : Word
  lastLength    : Word
  pullIn        : Bool
  alignDeadline : Option Word
  alignedStart  : Option Word
  frameNow      : Option Parked
  bands         : List Band
  trimEnd       : Option Word
  stretchLimit  : Option Word
  /-- The model's own: the marks emitted on the line pacing output, oldest first (log 19). -/
  lpo           : List Word
  deriving DecidableEq, Repr

/-- Lock states (6.6). -/
inductive LockState where
  | notLocking | aligning | seeking | locked | holdover
  deriving DecidableEq, Repr

/-- The lock fields of a pipe (R101). -/
structure LockCtl where
  state          : LockState
  sourcePulse    : Option Word
  silenceStart   : Option Word
  measured       : Bool
  phaseError     : Int
  trim           : Int
  within         : Nat
  beyond         : Nat
  lastFrameStart : Option Word
  deriving DecidableEq, Repr

/-- A pipe's fault set (R176). -/
structure PipeFaults where
  ackMissed    : Bool
  recovery     : Bool
  selectFailed : Bool
  lockLost     : Bool
  refLost      : Bool
  lateBand     : Bool
  deriving DecidableEq, Repr

/-- What the blocks of one pipe hold. -/
structure PipeState where
  lc      : LinkCtl
  pb      : PlanBuilder
  fr      : Runner
  lock    : LockCtl
  faults  : PipeFaults
  version : Word
  deriving DecidableEq, Repr

/-- A quiet span [start, stop) (R68). -/
structure Span where
  start : Nat
  stop  : Nat
  deriving DecidableEq, Repr

/-- Reference sources (R100). -/
inductive RefSource where
  | internal | external
  deriving DecidableEq, Repr

/-- The Reference Unit's state for the part (R100). -/
structure RefUnit where
  source     : RefSource
  fref       : Nat
  present    : Bool
  lastPulse  : Option Word
  earlyCount : Nat
  genPhase   : Option Word
  version    : Word
  deriving DecidableEq, Repr

/-- Bank states (8.1). -/
inductive BankMode where
  | parked | retuning | scanning
  deriving DecidableEq, Repr

/-- What a bank request carries for its Touch Assembler (R134, R135). -/
inductive Particulars where
  | window (endTime : Word) (frameLow : Byte) (ordinal : Nat) (noisy : Bool)
  | pad (tick : Word)
  deriving DecidableEq, Repr

/-- A bank request (8.2). -/
structure BankRequest where
  expiry      : Word
  particulars : Particulars
  deriving DecidableEq, Repr

/-- Policies (R141). -/
inductive Policy where
  | equal | inCellFirst | padFirst
  deriving DecidableEq, Repr

/-- The Bank Arbiter (R132). -/
structure Bank where
  mode        : BankMode
  surface     : Surface
  granted     : Option BankRequest
  scanStart   : Word
  scanRows    : Nat
  scanEnd     : Word
  retuneEnd   : Word
  waiting     : PerSurface (Option BankRequest)
  policy      : Policy
  lastGranted : Option Surface
  grantTime   : PerSurface (Option Word)
  grants      : PerSurface Word
  lost        : PerSurface Word
  version     : Word
  deriving DecidableEq, Repr

/-- A surface's geometry (R149). -/
structure Geometry where
  rows        : Nat
  cols        : Nat
  rowTime     : Nat
  padInterval : Nat
  padWindow   : Nat
  slack       : Nat
  deriving DecidableEq, Repr

/-- A row taken into a touch frame: its row record (R156) and its node values. -/
structure TouchRow where
  offset      : Word
  windowIndex : Byte
  noisy       : Bool
  nodes       : List Half
  deriving DecidableEq, Repr

/-- The frame in assembly (R149). -/
structure Assembly where
  firstRow  : Option Word
  rows      : List TouchRow
  used      : Nat
  lost      : Nat
  noisyRows : Nat
  deriving DecidableEq, Repr

/-- A touch frame record (R160). -/
structure TouchFrame where
  surface     : Surface
  firstRow    : Word
  completed   : Word
  rows        : Nat
  cols        : Nat
  used        : Nat
  lost        : Nat
  noisyRows   : Nat
  pipe1Frame  : Word
  rowData     : List TouchRow
  /-- The model's own: the place of its join among all joins (R168's tie, log 21). -/
  joined      : Nat
  deriving DecidableEq, Repr

/-- A surface's fault set (R176). -/
structure SurfaceFaults where
  windowLost   : Bool
  frameSkipped : Bool
  noisyWindow  : Bool
  deriving DecidableEq, Repr

/-- A Touch Assembler and its surface (R149). -/
structure SurfaceState where
  enabled : Bool
  geo     : Geometry
  cursor  : Nat
  asm     : Assembly
  held    : List TouchFrame
  skip    : Nat
  faults  : SurfaceFaults
  version : Word
  deriving DecidableEq, Repr

/-- The Pad Cadence Timer (R154). -/
structure PadTimer where
  running   : Bool
  nextTick  : Option Word
  tickCount : Word
  deriving DecidableEq, Repr

/-- Report block states (10.1). -/
inductive BlockState where
  | free | writing | filled
  deriving DecidableEq, Repr

/-- A write in progress (R165). -/
structure WriteJob where
  block         : Fin 16
  frame         : TouchFrame
  skippedBefore : Nat
  startedAt     : Word
  endsAt        : Word
  deriving DecidableEq, Repr

/-- The Report Writer (R165). -/
structure ReportWriter where
  blocks   : Vector BlockState 16
  freeList : List (Fin 16)
  writer   : Option WriteJob
  nextSeq  : PerSurface Word
  deriving DecidableEq, Repr

/-- Event pin sources with their selectors (11.3). -/
inductive PinSource where
  | none
  | frameStart (pipe : Pipe)
  | windowActive
  | scanActive (surface : Surface)
  | locked (pipe : Pipe)
  | reference
  | reportPending
  | faultAny
  deriving DecidableEq, Repr

/-- An event pin (R176): its source, and the pulse end time of a pulse in progress. -/
structure Pin where
  source   : PinSource
  pulseEnd : Option Word
  deriving DecidableEq, Repr

/-- The whole part. -/
structure State where
  /-- The commands waiting, first in first out. -/
  pending     : List Instr
  time        : Word
  ready       : Bool
  mem         : Memory
  notice      : Notices
  noticeMask  : Notices
  cells       : Vector CellState 16
  filledMarks : Vector Bool 16
  rqi         : Rqi
  pipes       : PerPipe PipeState
  quietSpans  : List Span
  shiftMax    : Nat
  ref         : RefUnit
  bank        : Bank
  surfaces    : PerSurface SurfaceState
  pct         : PadTimer
  rpw         : ReportWriter
  joinCounter : Nat
  pins        : Vector Pin 4
  /-- The model's own: free values drawn so far (log 2). -/
  free        : Nat
  deriving DecidableEq, Repr

def Notices.none : Notices := { cell := false, report := false, pipe := false, fault := false }

def LinkCtl.reset : LinkCtl :=
  { state := .off, modes := [], probeCount := 0, malformedSeen := false, missedAcks := 0, recoveryCount := 0,
    stopReason := .none, panelFault := 0, outstanding := none, parkedAdmit := none, answerDeadline := none,
    quietEnd := none, sending := none, waiting := [], sent := [] }

def PlanBuilder.reset : PlanBuilder :=
  { offers := [], autoAdmit := false, contract := none, selected := none, counter := 0, phase := .none,
    negotiate := none, nextPlan := none }

def Runner.reset : Runner :=
  { state := .stopped, plan := none, slot := 0, frameNumber := 0, frameStart := 0, lastLength := 0, pullIn := false,
    alignDeadline := none, alignedStart := none, frameNow := none, bands := [], trimEnd := none,
    stretchLimit := none, lpo := [] }

def LockCtl.reset : LockCtl :=
  { state := .notLocking, sourcePulse := none, silenceStart := none, measured := false, phaseError := 0, trim := 0,
    within := 0, beyond := 0, lastFrameStart := none }

def PipeFaults.none : PipeFaults :=
  { ackMissed := false, recovery := false, selectFailed := false, lockLost := false, refLost := false,
    lateBand := false }

def PipeState.reset : PipeState :=
  { lc := .reset, pb := .reset, fr := .reset, lock := .reset, faults := .none, version := 0 }

def RefUnit.reset : RefUnit :=
  { source := .internal, fref := 666667, present := true, lastPulse := none, earlyCount := 0, genPhase := none,
    version := 0 }

def Bank.reset : Bank :=
  { mode := .parked, surface := .s0, granted := none, scanStart := 0, scanRows := 0, scanEnd := 0, retuneEnd := 0,
    waiting := ⟨none, none⟩, policy := .equal, lastGranted := none, grantTime := ⟨none, none⟩, grants := ⟨0, 0⟩,
    lost := ⟨0, 0⟩, version := 0 }

def Assembly.empty : Assembly := { firstRow := none, rows := [], used := 0, lost := 0, noisyRows := 0 }

def SurfaceFaults.none : SurfaceFaults := { windowLost := false, frameSkipped := false, noisyWindow := false }

def Geometry.reset : Surface → Geometry
  | .s0 => { rows := 36, cols := 20, rowTime := 1500, padInterval := 0, padWindow := 0, slack := 0 }
  | .s1 => { rows := 8, cols := 8, rowTime := 1000, padInterval := 200000, padWindow := 12000, slack := 40000 }

def SurfaceState.reset (k : Surface) : SurfaceState :=
  { enabled := false, geo := .reset k, cursor := 0, asm := .empty, held := [], skip := 0, faults := .none,
    version := 0 }

def PadTimer.reset : PadTimer := { running := false, nextTick := none, tickCount := 0 }

def ReportWriter.reset : ReportWriter :=
  { blocks := Vector.replicate 16 .free, freeList := List.finRange 16, writer := none, nextSeq := ⟨1, 1⟩ }

/-- The part at the start of power-on reset (R4 and the reset tables of every chapter). Everything the spec names has
the value the spec states. `pending`, `free`, `joinCounter` and the two output histories are the model's own. -/
def State.reset : State :=
  { pending := [], time := 0, ready := false, mem := [], notice := .none, noticeMask := .none,
    cells := Vector.replicate 16 .hostOwned, filledMarks := Vector.replicate 16 false,
    rqi := { intake := [], completions := [], engine := .idle },
    pipes := ⟨.reset, .reset⟩, quietSpans := [], shiftMax := 0, ref := .reset, bank := .reset,
    surfaces := ⟨.reset .s0, .reset .s1⟩, pct := .reset, rpw := .reset, joinCounter := 0,
    pins := Vector.replicate 4 { source := .none, pulseEnd := none }, free := 0 }

end Sys2Proof.Machine
end

