-- ==== Sys2Proof/Machine/Memory.lean ====
section
/-! DEFINITION. Work Memory (R1, R2): reading and writing bytes and little-endian words over the canonical list. -/

namespace Sys2Proof.Machine

/-- The byte at an address; an unlisted address reads 0 (R4: power-on reset clears Work Memory). -/
def Memory.read : Memory → Nat → Byte
  | [], _ => 0
  | (k, b) :: rest, a => if k = a then b else Memory.read rest a

/-- The canonical form of consecutive bytes from an address: zero bytes are not listed. -/
def Memory.ofBytes (a : Nat) : List Byte → Memory
  | [] => []
  | b :: bs => if b = 0 then Memory.ofBytes (a + 1) bs else (a, b) :: Memory.ofBytes (a + 1) bs

/-- The entries below an address. -/
def Memory.below (m : Memory) (a : Nat) : Memory := m.filter fun c => decide (c.1 < a)

/-- The entries from an address on. -/
def Memory.atOrAbove (m : Memory) (a : Nat) : Memory := m.filter fun c => decide (a ≤ c.1)

/-- Store consecutive bytes from an address. -/
def Memory.writeBytes (m : Memory) (a : Nat) (bs : List Byte) : Memory :=
  m.below a ++ Memory.ofBytes a bs ++ m.atOrAbove (a + bs.length)

/-- Store 0 in every byte of [lo, hi). -/
def Memory.clear (m : Memory) (lo hi : Nat) : Memory := m.filter fun c => decide (c.1 < lo ∨ hi ≤ c.1)

/-- The `n` bytes from an address on. -/
def Memory.readBytes (m : Memory) (a n : Nat) : List Byte := (List.range n).map fun i => m.read (a + i)

/-- A word's four bytes, least significant first (00_scope, Byte order). -/
def wordBytes (w : Word) : List Byte :=
  [w.extractLsb' 0 8, w.extractLsb' 8 8, w.extractLsb' 16 8, w.extractLsb' 24 8]

/-- The word four bytes stand for, least significant first. -/
def wordOfBytes (b0 b1 b2 b3 : Byte) : Word := b3 ++ b2 ++ b1 ++ b0

/-- The aligned word at a byte address. -/
def Memory.readWord (m : Memory) (a : Nat) : Word :=
  wordOfBytes (m.read a) (m.read (a + 1)) (m.read (a + 2)) (m.read (a + 3))

/-- Store a word at a byte address. -/
def Memory.writeWord (m : Memory) (a : Nat) (w : Word) : Memory := m.writeBytes a (wordBytes w)

/-- The canonical form: addresses strictly rising, no entry equal to what an unlisted address reads as, every address
inside the 64 KiB of Work Memory. -/
abbrev Memory.wf (m : Memory) : Prop :=
  m.Pairwise (fun x y => x.1 < y.1) ∧ ∀ c ∈ m, c.2 ≠ 0 ∧ c.1 < 0x10000

/-! Little-endian byte lists of unsigned and signed fields (12 Formats, R187). -/

def u8 (n : Nat) : List Byte := [BitVec.ofNat 8 n]

def u16 (n : Nat) : List Byte := [BitVec.ofNat 8 n, BitVec.ofNat 8 (n / 256)]

def u32 (w : Word) : List Byte := wordBytes w

def u32n (n : Nat) : List Byte := wordBytes (BitVec.ofNat 32 n)

/-- A signed 16-bit field, two's complement (R187). -/
def s16 (i : Int) : List Byte := u16 (BitVec.ofInt 16 i).toNat

/-- A signed 32-bit field, two's complement (R187). -/
def s32 (i : Int) : List Byte := wordBytes (BitVec.ofInt 32 i)

/-- `n` bytes of 0: what a layout does not name (R187). -/
def zeroBytes (n : Nat) : List Byte := List.replicate n 0

/-- A byte list brought to length `n` with bytes of 0; no layout holds more than its length. -/
def padTo (n : Nat) (bs : List Byte) : List Byte := (bs ++ zeroBytes n).take n

def bit (b : Bool) : Nat := if b then 1 else 0

/-- Start of cell `n` (1.2). -/
def cellBase (n : Fin 16) : Nat := 256 * n.val

/-- Start of report block `b` (1.2), where its claim word lies (12.5). -/
def blockBase (b : Fin 16) : Nat := 0x2000 + 2560 * b.val

end Sys2Proof.Machine
end

