-- ==== Sys2Proof/Machine/Ops.lean ====
section
/-! DEFINITION. Access to the state's parts, the time, and the operations every block uses: notices, faults, pins'
pulses, handing a completion to the Request Intake. -/

namespace Sys2Proof.Machine

def PerPipe.get {α : Type} (x : PerPipe α) : Pipe → α
  | .p0 => x.p0
  | .p1 => x.p1

def PerPipe.set {α : Type} (x : PerPipe α) : Pipe → α → PerPipe α
  | .p0, a => { x with p0 := a }
  | .p1, a => { x with p1 := a }

def PerSurface.get {α : Type} (x : PerSurface α) : Surface → α
  | .s0 => x.s0
  | .s1 => x.s1

def PerSurface.set {α : Type} (x : PerSurface α) : Surface → α → PerSurface α
  | .s0, a => { x with s0 := a }
  | .s1, a => { x with s1 := a }

/-- The other pipe. -/
def otherPipe : Pipe → Pipe
  | .p0 => .p1
  | .p1 => .p0

/-- The other surface. -/
def otherSurface : Surface → Surface
  | .s0 => .s1
  | .s1 => .s0

def pipeNumber : Pipe → Nat
  | .p0 => 0
  | .p1 => 1

def surfaceNumber : Surface → Nat
  | .s0 => 0
  | .s1 => 1

def State.pipe (s : State) (p : Pipe) : PipeState := s.pipes.get p

def State.surf (s : State) (k : Surface) : SurfaceState := s.surfaces.get k

def State.modPipe (s : State) (p : Pipe) (g : PipeState → PipeState) : State :=
  { s with pipes := s.pipes.set p (g (s.pipe p)) }

def State.modSurf (s : State) (k : Surface) (g : SurfaceState → SurfaceState) : State :=
  { s with surfaces := s.surfaces.set k (g (s.surf k)) }

def State.modLc (s : State) (p : Pipe) (g : LinkCtl → LinkCtl) : State :=
  s.modPipe p fun x => { x with lc := g x.lc }

def State.modPb (s : State) (p : Pipe) (g : PlanBuilder → PlanBuilder) : State :=
  s.modPipe p fun x => { x with pb := g x.pb }

def State.modFr (s : State) (p : Pipe) (g : Runner → Runner) : State :=
  s.modPipe p fun x => { x with fr := g x.fr }

def State.modLock (s : State) (p : Pipe) (g : LockCtl → LockCtl) : State :=
  s.modPipe p fun x => { x with lock := g x.lock }

def State.modRef (s : State) (g : RefUnit → RefUnit) : State := { s with ref := g s.ref }

def State.modBank (s : State) (g : Bank → Bank) : State := { s with bank := g s.bank }

def State.modRpw (s : State) (g : ReportWriter → ReportWriter) : State := { s with rpw := g s.rpw }

/-! Time (00_scope): 32-bit counts of TU, differences modulo 2^32. -/

/-- The time-counter value `n` TU after `t`. -/
def tuAfter (t : Word) (n : Nat) : Word := t + BitVec.ofNat 32 n

/-- The instant `n` TU from now. -/
def State.after (s : State) (n : Nat) : Word := tuAfter s.time n

/-- Whether an instant, if there is one, is the present one. -/
def State.isNow (s : State) (t : Option Word) : Bool := decide (t = some s.time)

/-- TU from `t` to now, modulo 2^32. -/
def State.since (s : State) (t : Word) : Nat := (s.time - t).toNat

/-- An instant reads as lying before now when the difference, modulo 2^32, is 2^31 or more (R134, R139). -/
def State.liesBefore (s : State) (t : Word) : Bool := decide (2 ^ 31 ≤ (t - s.time).toNat)

/-! Durations the spec states. -/

/-- PROBE answer timer (R21). -/
def probeAnswerTU : Nat := 2000000

/-- SELECT and FRAME answer timer (R27, R29). -/
def answerTU : Nat := 4000

/-- Quiet interval of RECOVERY (R33). -/
def quietIntervalTU : Nat := 400000

/-- Sending time of one byte (R19). -/
def byteTU : Nat := 50

/-- Retune (R137). -/
def retuneTU : Nat := 1600

/-- Event pin pulse (R182). -/
def pinPulseTU : Nat := 100

/-- Longest initialisation (R5). -/
def initialisationTU : Nat := 50000

/-- Longest time to a decision instant, and longest completion write (R9). -/
def engineTU : Nat := 100

/-! Free values. -/

/-- Draw a free value: the number the next one is read at. -/
def State.draw (s : State) : Nat × State := (s.free, { s with free := s.free + 1 })

/-- An order of a list chosen by a number: every order is the order of some number. -/
def permuteBy {α : Type} : Nat → Nat → List α → List α
  | 0, _, l => l
  | _ + 1, _, [] => []
  | fuel + 1, n, a :: l =>
    let i := n % (l.length + 1)
    match (a :: l)[i]? with
    | some x => x :: permuteBy fuel (n / (l.length + 1)) ((a :: l).eraseIdx i)
    | none => a :: l

/-! Notices (R16). -/

def State.noticeCell (s : State) : State := { s with notice := { s.notice with cell := true } }

def State.noticeReport (s : State) : State := { s with notice := { s.notice with report := true } }

def State.noticePipe (s : State) : State := { s with notice := { s.notice with pipe := true } }

def State.noticeFault (s : State) : State := { s with notice := { s.notice with fault := true } }

/-! Handing completions to the RQI (R9, R12). -/

/-- An idle engine at once serves the oldest entry of the completion list (R9). -/
def State.serveCompletions (s : State) : State :=
  match s.rqi.engine, s.rqi.completions with
  | .idle, c :: rest => { s with rqi := { s.rqi with engine := .writing c s.time, completions := rest } }
  | _, _ => s

/-- Hand one owner's completions over, in the order given (R12). -/
def State.handOverAll (s : State) (cs : List Completion) : State :=
  { s with rqi := { s.rqi with completions := s.rqi.completions ++ cs } }.serveCompletions

/-- Hand over the completions of several owners in one event: "in either order" (R12). The owners come in a free order,
and the completions of one owner stay next to each other, in the owner's order: the model's choice (log 10). -/
def State.handOverGroups (s : State) (groups : List (List Completion)) : State :=
  match groups.filter fun g => !g.isEmpty with
  | [] => s
  | [g] => s.handOverAll g
  | gs => (s.draw).2.handOverAll (permuteBy gs.length (Config.handoverOrder (s.draw).1) gs).flatten

/-- A parked request's completion with a status and result words. -/
def Parked.complete (r : Parked) (status : Status) (results : List Word) : Completion :=
  { cell := r.cell, tag := r.tag, status := status, item := none, results := results }

/-- The ABORTED completion of a parked request, if one is parked. -/
def abortedOf (r : Option Parked) : List Completion :=
  match r with
  | some x => [x.complete .aborted []]
  | none => []

end Sys2Proof.Machine
end

