-- ==== Sys2Proof/Machine/Flags.lean ====
section
/-! DEFINITION. The flags: NOTICE and NOTICE_N (R16, R17, R185), the fault sets (R176 to R178) and the event pins
(R180 to R184). -/

namespace Sys2Proof.Machine

/-- The flags as the low four bits of a register (12.1); the other bits read 0 (R185). -/
def Notices.toWord (n : Notices) : Word :=
  BitVec.ofNat 32 (bit n.cell + 2 * bit n.report + 4 * bit n.pipe + 8 * bit n.fault)

/-- The four flags bits 0 to 3 of a written value name (R185). -/
def Notices.ofWord (w : Word) : Notices :=
  { cell := w.getLsbD 0, report := w.getLsbD 1, pipe := w.getLsbD 2, fault := w.getLsbD 3 }

/-- A write to NOTICE: each flag whose bit is 1 is cleared (R16). -/
def Notices.clearBy (n c : Notices) : Notices :=
  { cell := n.cell && !c.cell, report := n.report && !c.report, pipe := n.pipe && !c.pipe, fault := n.fault && !c.fault }

/-- Whether a flag is both set and enabled (R17). -/
def Notices.anyEnabled (n m : Notices) : Bool :=
  (n.cell && m.cell) || (n.report && m.report) || (n.pipe && m.pipe) || (n.fault && m.fault)

/-- The level of NOTICE_N: low (false) while a flag is set and enabled, else released high (R17). -/
def State.noticeN (s : State) : Bool := !s.notice.anyEnabled s.noticeMask

/-! Fault sets. -/

/-- The flags of a pipe set (R176). -/
inductive PipeFault where
  | ackMissed | recovery | selectFailed | lockLost | refLost | lateBand
  deriving DecidableEq, Repr

/-- The flags of a surface set (R176). -/
inductive SurfaceFault where
  | windowLost | frameSkipped | noisyWindow
  deriving DecidableEq, Repr

def PipeFaults.get (x : PipeFaults) : PipeFault → Bool
  | .ackMissed => x.ackMissed
  | .recovery => x.recovery
  | .selectFailed => x.selectFailed
  | .lockLost => x.lockLost
  | .refLost => x.refLost
  | .lateBand => x.lateBand

def PipeFaults.put (x : PipeFaults) : PipeFault → PipeFaults
  | .ackMissed => { x with ackMissed := true }
  | .recovery => { x with recovery := true }
  | .selectFailed => { x with selectFailed := true }
  | .lockLost => { x with lockLost := true }
  | .refLost => { x with refLost := true }
  | .lateBand => { x with lateBand := true }

def SurfaceFaults.get (x : SurfaceFaults) : SurfaceFault → Bool
  | .windowLost => x.windowLost
  | .frameSkipped => x.frameSkipped
  | .noisyWindow => x.noisyWindow

def SurfaceFaults.put (x : SurfaceFaults) : SurfaceFault → SurfaceFaults
  | .windowLost => { x with windowLost := true }
  | .frameSkipped => { x with frameSkipped := true }
  | .noisyWindow => { x with noisyWindow := true }

/-- The pipe fault set as coded in 12.3. -/
def PipeFaults.code (x : PipeFaults) : Nat :=
  bit x.ackMissed + 2 * bit x.recovery + 4 * bit x.selectFailed + 8 * bit x.lockLost + 16 * bit x.refLost +
    32 * bit x.lateBand

/-- The surface fault set as coded in 12.3. -/
def SurfaceFaults.code (x : SurfaceFaults) : Nat :=
  bit x.windowLost + 2 * bit x.frameSkipped + 4 * bit x.noisyWindow

/-- A fault of a pipe is handed to the Notice Unit (R177). -/
def State.raisePipeFault (s : State) (p : Pipe) (f : PipeFault) : State :=
  if (s.pipe p).faults.get f then s
  else (s.modPipe p fun x => { x with faults := x.faults.put f }).noticeFault

/-- A fault of a surface is handed to the Notice Unit (R177). -/
def State.raiseSurfaceFault (s : State) (k : Surface) (f : SurfaceFault) : State :=
  if (s.surf k).faults.get f then s
  else (s.modSurf k fun x => { x with faults := x.faults.put f }).noticeFault

/-! Event pins. -/

/-- Whether pipe 1 runs a WINDOW slot (R183). -/
def Runner.inWindow (r : Runner) : Bool :=
  match r.state, r.plan with
  | .running, some pl =>
    match pl.slots[r.slot - 1]? with
    | some (.window ..) => decide (r.slot ≠ 0)
    | _ => false
  | _, _ => false

/-- Whether the bank scans for a surface (R183). -/
def Bank.scansFor (b : Bank) (k : Surface) : Bool := decide (b.mode = .scanning ∧ b.surface = k)

/-- Whether a flag of any of the four sets is set (R183). -/
def State.anyFault (s : State) : Bool :=
  decide (s.pipes.p0.faults ≠ .none ∨ s.pipes.p1.faults ≠ .none ∨ s.surfaces.s0.faults ≠ .none ∨
    s.surfaces.s1.faults ≠ .none)

/-- The level of an event pin: a pulse source is high while a pulse is in progress (R182), a level source while its
condition holds (R183), NONE never. -/
def State.pinLevel (s : State) (k : Fin 4) : Bool :=
  match (s.pins[k]).source with
  | .none => false
  | .frameStart _ => (s.pins[k]).pulseEnd.isSome
  | .reference => (s.pins[k]).pulseEnd.isSome
  | .windowActive => s.pipes.p1.fr.inWindow
  | .scanActive f => s.bank.scansFor f
  | .locked p => decide ((s.pipe p).lock.state = .locked)
  | .reportPending => s.rpw.blocks.toList.contains .filled
  | .faultAny => s.anyFault

/-- An event of a pulse source: each pin assigned it goes high for 100 TU from now (R182). -/
def State.pulsePins (s : State) (src : PinSource) : State :=
  { s with pins := s.pins.map fun pin => if pin.source = src then { pin with pulseEnd := some (s.after pinPulseTU) } else pin }

/-- A pin's entry of a SET_EVENT_PINS: an equal entry leaves the pin, another takes over with no pulse (R181). -/
def Pin.assign (pin : Pin) (src : PinSource) : Pin :=
  if pin.source = src then pin else { source := src, pulseEnd := none }

end Sys2Proof.Machine
end

