-- ==== Sys2Proof/Machine/Records.lean ====
section
/-! DEFINITION. What the part publishes in Work Memory: the status records (12.3, R20, R100, R147, R149, R187), the
plan pages (12.4, R75) and the report blocks (12.5, R169); and the rewriting of a record whose fields have changed. -/

namespace Sys2Proof.Machine

/-! Codes of 12.2 and 12.3. -/

def Cadence.code : Cadence → Nat
  | .free => 1
  | .lockedRef => 2
  | .lockedPeer => 3
  | .relaxed => 4

def Reason.code : Reason → Nat
  | .offer => 1
  | .noOffers => 2
  | .noFit => 3

def LinkState.code : LinkState → Nat
  | .off => 0
  | .probing => 1
  | .held => 2
  | .selecting => 3
  | .active => 4
  | .recovery => 5

def StopReason.code : StopReason → Nat
  | .none => 0
  | .hostRestart => 1
  | .noAnswer => 2
  | .badList => 3
  | .selectRefused => 4
  | .selectTimeout => 5
  | .ackMissed => 6
  | .panelFault => 7

def RunnerState.code : RunnerState → Nat
  | .stopped => 0
  | .aligning => 1
  | .running => 2
  | .stretch => 3

def LockState.code : LockState → Nat
  | .notLocking => 0
  | .aligning => 1
  | .seeking => 2
  | .locked => 3
  | .holdover => 4

def Phase.code : Phase → Nat
  | .none => 0
  | .staged => 1
  | .selected => 2
  | .installed => 3

def BankMode.code : BankMode → Nat
  | .parked => 0
  | .retuning => 1
  | .scanning => 2

def Policy.code : Policy → Nat
  | .equal => 1
  | .inCellFirst => 2
  | .padFirst => 3

def RefSource.code : RefSource → Nat
  | .internal => 1
  | .external => 2

def Status.code : Status → Byte
  | .done => 0x01
  | .doneLate => 0x02
  | .doneFallback => 0x03
  | .unknownKind => 0x10
  | .badTarget => 0x11
  | .badValue => 0x12
  | .wrongState => 0x13
  | .busy => 0x14
  | .aborted => 0x20
  | .abandoned => 0x21

/-- A surface's number, or 0xFF for none. -/
def surfaceCode : Option Surface → Nat
  | some k => surfaceNumber k
  | none => 0xFF

/-- Type byte and echo value of the outstanding message, both 0 for none. -/
def outstandingBytes : Option Outstanding → List Byte
  | some (.select m) => [0xA2, m]
  | some (.frame n) => [0xA3, n]
  | none => [0, 0]

/-! Pipe record. -/

/-- The fields a pipe record mirrors (R20, R38, R58, R99, R101, R123, R177): the fields whose change rewrites it (log 37). -/
structure PipeView where
  state          : LinkState
  stopReason     : StopReason
  probeCount     : Nat
  malformedSeen  : Bool
  missedAcks     : Nat
  recoveryCount  : Nat
  panelFault     : Byte
  modes          : List ModeRecord
  outstanding    : Option Outstanding
  contract       : Option Contract
  selectedNumber : Word
  phase          : Phase
  offerCount     : Nat
  autoAdmit      : Bool
  bandCount      : Nat
  runner         : RunnerState
  lock           : LockState
  within         : Nat
  beyond         : Nat
  frameNumber    : Word
  frameStart     : Word
  lastLength     : Word
  phaseError     : Int
  trim           : Int
  faults         : PipeFaults
  shiftMax       : Nat
  spans          : List Span
  deriving DecidableEq, Repr

def State.pipeView (s : State) (p : Pipe) : PipeView :=
  let x := s.pipe p
  { state := x.lc.state, stopReason := x.lc.stopReason, probeCount := x.lc.probeCount,
    malformedSeen := x.lc.malformedSeen, missedAcks := x.lc.missedAcks, recoveryCount := x.lc.recoveryCount,
    panelFault := x.lc.panelFault, modes := x.lc.modes, outstanding := x.lc.outstanding, contract := x.pb.contract,
    selectedNumber := (x.pb.selected.map (·.number)).getD 0, phase := x.pb.phase, offerCount := x.pb.offers.length,
    autoAdmit := x.pb.autoAdmit, bandCount := x.fr.bands.length, runner := x.fr.state, lock := x.lock.state,
    within := x.lock.within, beyond := x.lock.beyond, frameNumber := x.fr.frameNumber, frameStart := x.fr.frameStart,
    lastLength := x.fr.lastLength, phaseError := x.lock.phaseError, trim := x.lock.trim, faults := x.faults,
    shiftMax := match p with
      | .p0 => 0
      | .p1 => s.shiftMax,
    spans := match p with
      | .p0 => []
      | .p1 => s.quietSpans }

/-- A mode record in 16 bytes: the 14 of 12.6, then 2 of 0. -/
def modeBytes (m : ModeRecord) : List Byte :=
  u16 m.v.toNat ++ [m.vb, m.wmax] ++ u16 m.hmin.toNat ++ u32 m.lwMin ++ u32 m.fmax ++ [0, 0]

/-- A contract record, 48 bytes. -/
def Contract.bytes (c : Contract) : List Byte :=
  padTo 48 (u32 c.number ++ u8 c.offerIndex ++ u8 c.modeIndex ++ u8 c.cadence.code ++ u8 c.reason.code ++ u16 c.v ++
    u8 c.vb ++ u8 c.w ++ u16 c.n ++ u16 c.hmin ++ u32n c.f ++ u16 c.h ++ u16 c.q ++ u32n c.lw ++ u32n c.fr ++
    u32n c.offset ++ u16 c.trimMax ++ u8 (bit c.clamped + 2 * bit c.raised + 4 * bit c.fallback))

def Span.bytes (x : Span) : List Byte := u32n x.start ++ u32n x.stop

/-- The pipe record, 512 bytes. -/
def PipeView.bytes (x : PipeView) (version : Word) : List Byte :=
  padTo 512 (u32 version ++ u8 x.state.code ++ u8 x.stopReason.code ++ u8 x.probeCount ++ u8 (bit x.malformedSeen) ++
    u8 x.missedAcks ++ u8 x.recoveryCount ++ [x.panelFault] ++ u8 x.modes.length ++ outstandingBytes x.outstanding ++
    [0, 0] ++ padTo 112 (x.modes.flatMap modeBytes) ++
    (match x.contract with
      | some c => c.bytes
      | none => zeroBytes 48) ++
    u32 x.selectedNumber ++ u8 x.phase.code ++ u8 x.offerCount ++ u8 (bit x.autoAdmit) ++ u8 x.bandCount ++
    u8 x.runner.code ++ u8 x.lock.code ++ u8 x.within ++ u8 x.beyond ++ u32 x.frameNumber ++ u32 x.frameStart ++
    u32 x.lastLength ++ s32 x.phaseError ++ s16 x.trim ++ u8 x.faults.code ++ [0] ++ u8 x.shiftMax ++
    u8 x.spans.length ++ [0, 0] ++ padTo 64 (x.spans.flatMap Span.bytes))

def pipeRecordBase : Pipe → Nat
  | .p0 => 0x1000
  | .p1 => 0x1200

/-- The pipe record as the state gives it. -/
def State.pipeRecord (s : State) (p : Pipe) : List Byte := (s.pipeView p).bytes (s.pipe p).version

/-! Surface record. -/

/-- The fields a surface record mirrors (R149, R154, R177). -/
structure SurfaceView where
  enabled   : Bool
  geo       : Geometry
  cursor    : Nat
  used      : Nat
  lost      : Nat
  noisyRows : Nat
  heldCount : Nat
  faults    : SurfaceFaults
  skip      : Nat
  timer     : PadTimer
  deriving DecidableEq, Repr

def State.surfaceView (s : State) (k : Surface) : SurfaceView :=
  let x := s.surf k
  { enabled := x.enabled, geo := x.geo, cursor := x.cursor, used := x.asm.used, lost := x.asm.lost,
    noisyRows := x.asm.noisyRows, heldCount := x.held.length, faults := x.faults, skip := x.skip,
    timer := match k with
      | .s0 => .reset
      | .s1 => s.pct }

/-- The surface record, 128 bytes. Surface 0 has no pad fields and no timer: its view holds 0 there. -/
def SurfaceView.bytes (x : SurfaceView) (version : Word) : List Byte :=
  padTo 128 (u32 version ++ u8 (bit x.enabled) ++ u8 x.geo.rows ++ u8 x.geo.cols ++ u8 x.cursor ++
    u32n x.geo.rowTime ++ u32n x.geo.padInterval ++ u32n x.geo.padWindow ++ u32n x.geo.slack ++ u16 x.used ++
    u16 x.lost ++ u8 x.noisyRows ++ u8 x.heldCount ++ u8 x.faults.code ++ u8 (bit x.timer.running) ++ u16 x.skip ++
    [0, 0] ++ u32 x.timer.tickCount ++ u32 (x.timer.nextTick.getD 0))

def surfaceRecordBase : Surface → Nat
  | .s0 => 0x1400
  | .s1 => 0x1480

def State.surfaceRecord (s : State) (k : Surface) : List Byte := (s.surfaceView k).bytes (s.surf k).version

/-! Bank and reference records. -/

/-- The surface a request is of (8.2). -/
def BankRequest.surface (r : BankRequest) : Surface :=
  match r.particulars with
  | .window .. => .s0
  | .pad _ => .s1

/-- The bank record, 64 bytes (R147). -/
def Bank.bytes (b : Bank) : List Byte :=
  padTo 64 (u32 b.version ++ u8 b.mode.code ++ u8 (surfaceNumber b.surface) ++
    u8 (surfaceCode (b.granted.map (·.surface))) ++ u8 b.policy.code ++ u32 b.scanStart ++ u32n b.scanRows ++
    u32 b.scanEnd ++ u32 b.retuneEnd ++ u8 (bit b.waiting.s0.isSome + 2 * bit b.waiting.s1.isSome) ++
    u8 (surfaceCode b.lastGranted) ++ u8 (bit b.grantTime.s0.isSome + 2 * bit b.grantTime.s1.isSome) ++ [0] ++
    u32 ((b.waiting.s0.map (·.expiry)).getD 0) ++ u32 ((b.waiting.s1.map (·.expiry)).getD 0) ++
    u32 (b.grantTime.s0.getD 0) ++ u32 (b.grantTime.s1.getD 0) ++ u32 b.grants.s0 ++ u32 b.grants.s1 ++
    u32 b.lost.s0 ++ u32 b.lost.s1)

def bankRecordBase : Nat := 0x1500

/-- The reference record, 64 bytes (R100). -/
def RefUnit.bytes (r : RefUnit) : List Byte :=
  padTo 64 (u32 r.version ++ u8 r.source.code ++ u8 (bit r.present) ++ u8 (bit r.lastPulse.isSome) ++ [0] ++
    u32n r.fref ++ u32 (r.lastPulse.getD 0) ++ u16 r.earlyCount)

def refRecordBase : Nat := 0x1540

/-! Rewriting a record: its version word rises by 1, wrapping, and the record is written (R20, R100, R147, R149). -/

def State.rewritePipe (s : State) (p : Pipe) : State :=
  let t := s.modPipe p fun x => { x with version := x.version + 1 }
  { t with mem := t.mem.writeBytes (pipeRecordBase p) (t.pipeRecord p) }

def State.rewriteSurface (s : State) (k : Surface) : State :=
  let t := s.modSurf k fun x => { x with version := x.version + 1 }
  { t with mem := t.mem.writeBytes (surfaceRecordBase k) (t.surfaceRecord k) }

def State.rewriteBank (s : State) : State :=
  let t := s.modBank fun b => { b with version := b.version + 1 }
  { t with mem := t.mem.writeBytes bankRecordBase t.bank.bytes }

def State.rewriteRef (s : State) : State :=
  let t := s.modRef fun r => { r with version := r.version + 1 }
  { t with mem := t.mem.writeBytes refRecordBase t.ref.bytes }

/-- The reference fields whose change rewrites the record: all but the generator phase (R100). -/
def RefUnit.mirrored (r : RefUnit) : RefSource × Nat × Bool × Option Word × Nat :=
  (r.source, r.fref, r.present, r.lastPulse, r.earlyCount)

/-- The pipe record is rewritten where an event out of `s` has changed a field the record mirrors (R20, R99). A change of the
parked ADMIT alone, or of another field that the record does not show, rewrites nothing: the model's choice (log 37).
Before READY too the record is rewritten at once: the model's choice (log 38). -/
def publishPipe (s : State) (p : Pipe) (t : State) : State :=
  if t.pipeView p = s.pipeView p then t else t.rewritePipe p

def publishSurface (s : State) (k : Surface) (t : State) : State :=
  if t.surfaceView k = s.surfaceView k then t else t.rewriteSurface k

def publishBank (s t : State) : State := if t.bank = s.bank then t else t.rewriteBank

def publishRef (s t : State) : State := if t.ref.mirrored = s.ref.mirrored then t else t.rewriteRef

/-- At the end of an event that took `s` to `t`: each record with a changed field is rewritten, once (R99, log 5). An
event in which a field changes and changes back adds `pipeRewritten` or `surfaceRewritten`. -/
def publish (s t : State) : State :=
  publishRef s (publishBank s (publishSurface s .s1 (publishSurface s .s0 (publishPipe s .p1 (publishPipe s .p0 t)))))

/-- The pipe record is rewritten in an event out of `s` even where its fields end as they began (R20, log 5). -/
def State.pipeRewritten (t s : State) (p : Pipe) : State :=
  if (t.pipe p).version = (s.pipe p).version then t.rewritePipe p else t

/-- The surface record is rewritten in an event out of `s` even where its fields end as they began (R149, R162, log 5). -/
def State.surfaceRewritten (t s : State) (k : Surface) : State :=
  if (t.surf k).version = (s.surf k).version then t.rewriteSurface k else t

/-- The status area and the plan pages as initialisation writes them (R4, R77, R187): the fields as they stand, which are the
reset values but for the code of a PANEL_FAULT received since the reset, and the version it has raised (log 38). -/
def State.writeStatusArea (s : State) : State :=
  let m := s.mem.clear 0x1000 0x2000
  let m := m.writeBytes (pipeRecordBase .p0) (s.pipeRecord .p0)
  let m := m.writeBytes (pipeRecordBase .p1) (s.pipeRecord .p1)
  let m := m.writeBytes (surfaceRecordBase .s0) (s.surfaceRecord .s0)
  let m := m.writeBytes (surfaceRecordBase .s1) (s.surfaceRecord .s1)
  let m := m.writeBytes bankRecordBase s.bank.bytes
  { s with mem := m.writeBytes refRecordBase s.ref.bytes }

/-! Plan page (12.4). -/

def Slot.start : Slot → Nat
  | .burst a _ _ _ => a
  | .window a _ _ _ _ => a
  | .blank a _ _ _ => a
  | .trim a _ => a

def Slot.length : Slot → Nat
  | .burst _ n _ _ => n
  | .window _ n _ _ _ => n
  | .blank _ n _ _ => n
  | .trim _ n => n

/-- A slot record, 16 bytes; fields its kind lacks read 0 (R75). -/
def Slot.bytes : Slot → List Byte
  | .burst a n first count => [1, 0, 0, 0] ++ u32n a ++ u32n n ++ u16 first ++ u16 count
  | .window a n j shift noisy => [2] ++ u8 j ++ u8 shift ++ u8 (bit noisy) ++ u32n a ++ u32n n ++ [0, 0, 0, 0]
  | .blank a n first count => [3, 0, 0, 0] ++ u32n a ++ u32n n ++ u16 first ++ u16 count
  | .trim a n => [4, 0, 0, 0] ++ u32n a ++ u32n n ++ [0, 0, 0, 0]

/-- The plan page, 1,024 bytes. -/
def Plan.bytes (x : Plan) : List Byte :=
  padTo 1024 (padTo 64 (u32 x.frameNumber ++ u32 x.contractNumber ++ u32n x.f ++ u16 x.h ++ u16 x.q ++ u32n x.lw ++
    u16 x.v ++ u8 x.vb ++ u8 x.w ++ u8 x.cadence.code ++ u8 x.slots.length) ++ x.slots.flatMap Slot.bytes)

def planPageBase : Pipe → Nat
  | .p0 => 0x1800
  | .p1 => 0x1C00

/-! Report block (12.5). -/

/-- A row record of the row table, 6 bytes. -/
def TouchRow.bytes (r : TouchRow) : List Byte := u32 r.offset ++ [r.windowIndex] ++ u8 (bit r.noisy)

/-- Header of the block but for the claim word: bytes 0x004 to 0x02F. -/
def WriteJob.header (j : WriteJob) : List Byte :=
  padTo 44 (u8 (surfaceNumber j.frame.surface) ++ u8 j.frame.rows ++ u8 j.frame.cols ++ u8 j.frame.noisyRows ++
    u32 j.frame.firstRow ++ u32 j.frame.completed ++ u16 j.frame.used ++ u16 j.frame.lost ++ u16 j.skippedBefore ++
    [0, 0] ++ u32 j.frame.pipe1Frame ++ u32 j.startedAt)

/-- The row table: at most 64 row records. -/
def WriteJob.rowTable (j : WriteJob) : List Byte := (j.frame.rowData.flatMap TouchRow.bytes).take 384

/-- The node area: at most 1,024 values. -/
def WriteJob.nodeArea (j : WriteJob) : List Byte :=
  (j.frame.rowData.flatMap fun r => r.nodes.flatMap fun v => u16 v.toNat).take 2048

/-- The words that hold a byte list. -/
def wordCount (bs : List Byte) : Nat := (bs.length + 3) / 4

/-- The first `n` words of a byte list. -/
def firstWords (n : Nat) (bs : List Byte) : List Byte := bs.take (4 * n)

/-- The first `n` words of what the writer writes before the claim word, in its order (R169); a word is never written in
part (R187). -/
def WriteJob.writePart (j : WriteJob) (n : Nat) (m : Memory) : Memory :=
  let base := blockBase j.block
  ((m.writeBytes (base + 0x004) (firstWords n j.header)).writeBytes (base + 0x030)
    (firstWords (n - wordCount j.header) j.rowTable)).writeBytes (base + 0x1B0)
    (firstWords (n - wordCount j.header - wordCount j.rowTable) j.nodeArea)

/-- The words of all that the writer writes before the claim word. -/
def WriteJob.size (j : WriteJob) : Nat := wordCount j.header + wordCount j.rowTable + wordCount j.nodeArea

/-! A completion in its cell (12.2, R13). -/

/-- The status word: the status code and the tag. -/
def Completion.statusWord (c : Completion) : Word := c.tag ++ c.status.code

/-- Consecutive words from an address. -/
def wordsFrom : Nat → List Word → List (Nat × Word)
  | _, [] => []
  | a, w :: ws => (a, w) :: wordsFrom (a + 4) ws

/-- The words a completion writes before the code word, in order: item index or result words, of which a cell has four,
then the status word (R13, 12.2). -/
def Completion.words (c : Completion) : List (Nat × Word) :=
  (match c.item with
    | some k => [(cellBase c.cell + 0x0C, BitVec.ofNat 32 k)]
    | none => []) ++ wordsFrom (cellBase c.cell + 0x10) (c.results.take 4) ++ [(cellBase c.cell + 0x04, c.statusWord)]

/-- Store words in order. -/
def Memory.writeWords (m : Memory) (ws : List (Nat × Word)) : Memory := ws.foldl (fun m x => m.writeWord x.1 x.2) m

/-- The first two steps of R13: all but the code word. -/
def Completion.writeBody (c : Completion) (m : Memory) : Memory := m.writeWords c.words

end Sys2Proof.Machine
end

