-- ==== Sys2Proof/Machine/Reports.lean ====
section
/-! DEFINITION. The Report Writer (chapter 10): starting a write (R168, R169), completing it (R170), taking a returned
block back (R167) and rebuilding the block population (R175). -/

namespace Sys2Proof.Machine

/-- How long a write lasts (R169). -/
def TouchFrame.writeTU (f : TouchFrame) : Nat := 1000 + 8 * f.rows + 2 * (f.rows * f.cols)

/-- The surface whose head frame is the oldest (R168 step 1). -/
def State.oldestHead (s : State) : Option Surface :=
  match (s.surf .s0).held.head?, (s.surf .s1).held.head? with
  | none, none => none
  | some _, none => some .s0
  | none, some _ => some .s1
  | some a, some b =>
    if s.since b.completed < s.since a.completed then some .s0
    else if s.since a.completed < s.since b.completed then some .s1
    else if a.joined ≤ b.joined then some .s0 else some .s1

/-- Start a write if the writer is IDLE, a block is FREE and a frame is held (R168). -/
def State.startWrite (s : State) : State :=
  match s.rpw.writer, s.rpw.freeList, s.oldestHead with
  | none, b :: rest, some k =>
    match (s.surf k).held with
    | [] => s
    | f :: held =>
      let job : WriteJob :=
        { block := b, frame := f, skippedBefore := (s.surf k).skip, startedAt := s.time, endsAt := s.after f.writeTU }
      (s.modSurf k fun x => { x with held := held, skip := 0 }).modRpw fun r =>
        { r with blocks := r.blocks.set b .writing, freeList := rest, writer := some job }
  | _, _, _ => s

/-- Sequence numbers go from 4,294,967,295 to 1 (R171). -/
def nextSequence (n : Word) : Word := if n = 0xFFFFFFFF#32 then 1 else n + 1

/-- The write completes: contents, claim word, marks, notice, next sequence; then the next write may start (R170). -/
def State.completeWrite (s : State) (j : WriteJob) : State :=
  let k := j.frame.surface
  let seq := s.rpw.nextSeq.get k
  let m := (j.writePart j.size s.mem).writeWord (blockBase j.block) seq
  let t := { s with mem := m, filledMarks := s.filledMarks.set j.block true }
  let t := t.modRpw fun r =>
    { r with blocks := r.blocks.set j.block .filled, writer := none, nextSeq := r.nextSeq.set k (nextSequence seq) }
  t.noticeReport.startWrite

/-- A claim arrival: the block becomes FREE and joins the tail of the free list; a write may start (R167). -/
def State.claimArrival (s : State) (b : Fin 16) : State :=
  (s.modRpw fun r => { r with blocks := r.blocks.set b .free, freeList := r.freeList ++ [b] }).startWrite

/-- The block population as the claim words give it (R175): non-zero is FILLED, zero is FREE in rising index order. -/
def State.rebuildBlocks (s : State) : State :=
  let filled := fun b : Fin 16 => decide (s.mem.readWord (blockBase b) ≠ 0)
  let t := { s with filledMarks := Vector.ofFn filled }
  t.modRpw fun r =>
    { r with blocks := Vector.ofFn fun b => if filled b then .filled else .free,
             freeList := (List.finRange 16).filter fun b => !filled b, writer := none, nextSeq := ⟨1, 1⟩ }

end Sys2Proof.Machine
end

