-- ==== Sys2Proof/Machine/Touch.lean ====
section
/-! DEFINITION. The Touch Assemblers (chapter 9): taking rows (R156 to R158), losses (R159), completing a frame (R160),
the held list (R161), abandoning (R163). -/

namespace Sys2Proof.Machine

/-- Saturating count of 16 bits. -/
def satHalf (n : Nat) : Nat := min (n + 1) 65535

/-- The frame in assembly is abandoned and the cursor returns to 0 (R163). -/
def State.abandonFrame (s : State) (k : Surface) : State :=
  s.modSurf k fun x => { x with asm := .empty, cursor := 0 }

/-- A loss counts against the frame in assembly (R159). -/
def State.countLoss (s : State) (k : Surface) : State :=
  s.modSurf k fun x => { x with asm := { x.asm with lost := satHalf x.asm.lost } }

/-- A held list that is full gives up its head; the discard is counted and is a fault (R161). -/
def State.discardIfFull (s : State) (k : Surface) : State :=
  if 2 ≤ (s.surf k).held.length then
    (s.modSurf k fun x => { x with held := x.held.drop 1, skip := satHalf x.skip }).raiseSurfaceFault k .frameSkipped
  else s

/-- A completed touch frame joins its held list (R161); the Report Writer checks at once (R168, log 14). -/
def State.joinHeld (s : State) (k : Surface) (f : TouchFrame) : State :=
  let t := (s.discardIfFull k).modSurf k fun x => { x with held := x.held ++ [{ f with joined := s.joinCounter }] }
  { t with joinCounter := t.joinCounter + 1 }.startWrite

/-- What a scan gives each of its rows (R140): the window index and the noisy mark (R156). -/
structure RowSource where
  windowIndex : Byte
  noisy       : Bool
  deriving DecidableEq, Repr

def Particulars.rowSource : Particulars → RowSource
  | .window _ low _ noisy => { windowIndex := low, noisy := noisy }
  | .pad tick => { windowIndex := tick.setWidth 8, noisy := false }

/-- The frame in assembly after one more row (R156 steps 1 and 2, R157, R158); `fresh`: no row of this scan is in the
frame yet. -/
def SurfaceState.addRow (x : SurfaceState) (fresh : Bool) (instant : Word) (src : RowSource) (nodes : List Half) :
    Assembly :=
  let first := if x.cursor = 0 then instant else x.asm.firstRow.getD instant
  { firstRow := some first,
    rows := x.asm.rows ++
      [{ offset := instant - first, windowIndex := src.windowIndex, noisy := src.noisy, nodes := nodes }],
    used := x.asm.used + bit fresh, lost := x.asm.lost, noisyRows := x.asm.noisyRows + bit src.noisy }

/-- The touch frame record of a complete frame in assembly (R160). -/
def State.touchFrame (s : State) (k : Surface) (a : Assembly) (instant : Word) : TouchFrame :=
  { surface := k, firstRow := a.firstRow.getD instant, completed := tuAfter instant (s.surf k).geo.rowTime,
    rows := (s.surf k).geo.rows, cols := (s.surf k).geo.cols, used := a.used, lost := a.lost, noisyRows := a.noisyRows,
    pipe1Frame := match k with
      | .s0 => s.pipes.p1.fr.frameNumber
      | .s1 => 0,
    rowData := a.rows, joined := 0 }

/-- Take one row of a scan (R156); answers whether the next row is the scan's first in its frame. -/
def State.takeRow (s : State) (k : Surface) (fresh : Bool) (instant : Word) (src : RowSource) (nodes : List Half) :
    State × Bool :=
  let x := s.surf k
  let a := x.addRow fresh instant src nodes
  if x.geo.rows ≤ x.cursor + 1 then
    ((s.modSurf k fun y => { y with asm := .empty, cursor := 0 }).joinHeld k (s.touchFrame k a instant), true)
  else (s.modSurf k fun y => { y with asm := a, cursor := y.cursor + 1 }, false)

/-- Take `n` rows of a scan from position `i` on (R140, R156). -/
def State.takeRows (s : State) (k : Surface) (start : Word) (rowTime : Nat) (src : RowSource)
    (nodes : Nat → List Half) : Nat → Nat → Bool → State
  | 0, _, _ => s
  | n + 1, i, fresh =>
    let r := s.takeRow k fresh (tuAfter start (i * rowTime)) src (nodes i)
    State.takeRows r.1 k start rowTime src nodes n (i + 1) r.2

/-- The node values of row `i` of a scan of `cols` columns: those delivered, and free values for what is not (log 9). -/
def rowNodes (delivered : List Half) (draw cols i : Nat) : List Half :=
  (List.range cols).map fun c => delivered.getD (i * cols + c) (Config.nodeValue draw (i * cols + c))

end Sys2Proof.Machine
end

