-- ==== Sys2Proof/Machine/Bank.lean ====
section
/-! DEFINITION. The Bank Arbiter (chapter 8): arrivals (R136), grants (R141), retunes (R137, R138), scans (R139, R140),
freeing (R141), losses (R144), aborts and withdrawals (R145, R146); and the Pad Cadence Timer's tick (R154). -/

namespace Sys2Proof.Machine

/-- A request of a surface is lost (R144). -/
def State.loseRequest (s : State) (k : Surface) : State :=
  ((s.modBank fun b => { b with lost := b.lost.set k (b.lost.get k + 1) }).raiseSurfaceFault k .windowLost).countLoss k

/-- The row count of a scan that starts now (R139). -/
def State.scanRowCount (s : State) (r : BankRequest) : Nat :=
  let geo := (s.surf r.surface).geo
  match r.particulars with
  | .window endTime _ _ _ => if s.liesBefore endTime then 0 else (endTime - s.time).toNat / geo.rowTime
  | .pad _ => geo.padWindow / geo.rowTime

/-- Start the scan of a granted request, or lose it for want of a row (R139); the flag says the bank is freed. -/
def State.startScan (s : State) (r : BankRequest) : State × Bool :=
  let n := s.scanRowCount r
  if n = 0 then
    ((s.loseRequest r.surface).modBank fun b => { b with mode := .parked, granted := none, surface := r.surface }, true)
  else
    (s.modBank fun b =>
      { b with mode := .scanning, surface := r.surface, granted := some r, scanStart := s.time, scanRows := n,
               scanEnd := s.after (n * (s.surf r.surface).geo.rowTime) }, false)

/-- Grant a request: count it, then scan, or retune first (R137, R141); the flag says the bank is freed again. -/
def State.grant (s : State) (r : BankRequest) : State × Bool :=
  let k := r.surface
  let t := s.modBank fun b =>
    { b with grants := b.grants.set k (b.grants.get k + 1), grantTime := b.grantTime.set k (some s.time),
             lastGranted := some k }
  if s.bank.surface = k then t.startScan r
  else (t.modBank fun b => { b with mode := .retuning, surface := k, granted := some r, retuneEnd := s.after retuneTU }, false)

/-- The request the freed bank grants, by the policy where both wait (R141). -/
def Bank.nextWaiting (b : Bank) : Option BankRequest :=
  match b.waiting.s0, b.waiting.s1 with
  | none, none => none
  | some x, none => some x
  | none, some y => some y
  | some x, some y =>
    match b.policy with
    | .inCellFirst => some x
    | .padFirst => some y
    | .equal => if b.lastGranted = some .s0 then some y else some x

/-- Take a surface's request out of the waiting set. -/
def State.unwait (s : State) (k : Surface) : State := s.modBank fun b => { b with waiting := b.waiting.set k none }

/-- The freed bank serves the waiting set (R141); each grant without a row frees it again, and the set holds at most
two requests. -/
def State.serveWaiting : Nat → State → State
  | 0, s => s
  | n + 1, s =>
    match s.bank.nextWaiting with
    | none => s
    | some r =>
      let x := (s.unwait r.surface).grant r
      if x.2 then State.serveWaiting n x.1 else x.1

/-- The bank is freed (R141). -/
def State.freeBank (s : State) : State := s.serveWaiting 2

/-- A request arrives at the arbiter (R136). -/
def State.requestArrives (s : State) (r : BankRequest) : State :=
  let k := r.surface
  let late := decide (k = .s0) && s.liesBefore r.expiry
  if late ∧ ¬ (s.bank.mode = .parked ∧ s.bank.surface = .s0) then s.loseRequest k
  else if s.bank.mode = .parked then
    let x := s.grant r
    if x.2 then x.1.freeBank else x.1
  else
    let t := if (s.bank.waiting.get k).isSome then s.loseRequest k else s
    t.modBank fun b => { b with waiting := b.waiting.set k (some r) }

/-- The window request FR1 raises (R90), with the expiry the arbiter sets (R134). -/
def State.windowRequest (s : State) (endTime : Word) (frameLow : Byte) (ordinal : Nat) (noisy : Bool) : BankRequest :=
  { expiry := endTime - BitVec.ofNat 32 (s.surf .s0).geo.rowTime, particulars := .window endTime frameLow ordinal noisy }

/-- The pad request of a tick, with the expiry the arbiter sets (R135). -/
def State.padRequest (s : State) (tick : Word) : BankRequest :=
  { expiry := s.after (s.surf .s1).geo.slack, particulars := .pad tick }

/-- A scan of a surface in progress is aborted: the bank parks and is freed (R145). -/
def State.abortScan (s : State) (k : Surface) : State :=
  if s.bank.scansFor k then (s.modBank fun b => { b with mode := .parked, granted := none }).freeBank else s

/-- A surface's use of the bank ends: waiting request withdrawn, request of a retune dropped, scan aborted
(R145 disable, R146). -/
def State.endBankUse (s : State) (k : Surface) : State :=
  let t := s.unwait k
  let t := if t.bank.mode = .retuning ∧ t.bank.surface = k then t.modBank fun b => { b with granted := none } else t
  t.abortScan k

/-- The retune ends (R138). -/
def State.endRetune (s : State) : State :=
  match s.bank.granted with
  | some r =>
    let x := s.startScan r
    if x.2 then x.1.freeBank else x.1
  | none => (s.modBank fun b => { b with mode := .parked }).freeBank

/-- The scan of a granted request completes (R140, R158): rows to the assembler, then the bank parks and is freed. -/
def State.completeScan (s : State) (r : BankRequest) (nodes : List Half) : State :=
  let k := r.surface
  let cols := (s.surf k).geo.cols
  let src := r.particulars.rowSource
  let n := s.bank.scanRows
  let t := if nodes.length < n * cols then (s.draw).2 else s
  let t := t.takeRows k s.bank.scanStart (s.surf k).geo.rowTime src (rowNodes nodes (s.draw).1 cols) n 0 true
  let t := if src.noisy then t.raiseSurfaceFault k .noisyWindow else t
  (t.modBank fun b => { b with mode := .parked, granted := none }).freeBank

/-- A waiting request reaches its expiry and is lost (R143). -/
def State.expireRequest (s : State) (k : Surface) : State := (s.unwait k).loseRequest k

/-- A pad tick (R154). -/
def State.tickPad (s : State) : State :=
  let n := s.pct.tickCount + 1
  let t := { s with pct := { s.pct with tickCount := n } }
  let t := t.requestArrives (t.padRequest n)
  { t with pct := { t.pct with nextTick := some (s.after (s.surf .s1).geo.padInterval) } }

end Sys2Proof.Machine
end

