-- ==== Sys2Proof/Machine/Contracts.lean ====
section
/-! DEFINITION. Cadence contracts: the fit test (R41 to R43), selection and the fallback (R44, R45), the contract record
and its number (R46). -/

namespace Sys2Proof.Machine

/-- W′ (R41). -/
def fitWindows (p : Pipe) (o : Offer) (m : ModeRecord) : Nat :=
  match p with
  | .p0 => 0
  | .p1 => min o.w m.wmax.toNat

/-- Lw′ (R41). -/
def fitWindowLength (p : Pipe) (o : Offer) (m : ModeRecord) : Nat :=
  if fitWindows p o m = 0 then 0 else max o.lw m.lwMin.toNat

/-- N = V + Vb of a mode. -/
def modeLines (m : ModeRecord) : Nat := m.v.toNat + m.vb.toNat

/-- The line budget B = F − W′·Lw′ (R42, R63); 0 stands for a budget that is not positive. -/
def fitBudget (p : Pipe) (o : Offer) (m : ModeRecord) : Nat := o.f - fitWindows p o m * fitWindowLength p o m

/-- Whether a contract is FREE or LOCKED_REF at a frame period (R43). -/
def Contract.followable (c : Contract) (f : Nat) : Bool :=
  decide ((c.cadence = .free ∨ c.cadence = .lockedRef) ∧ c.f = f)

/-- The lock condition (R43). -/
def State.lockCondition (s : State) (p : Pipe) (o : Offer) : Bool :=
  match o.cadence with
  | .lockedRef => decide (o.f = s.ref.fref)
  | .lockedPeer =>
    let q := s.pipe (otherPipe p)
    decide (q.lc.state = .active) &&
      (match q.pb.contract with
        | some c => c.followable o.f
        | none => false) &&
      (match q.pb.selected with
        | some c => c.followable o.f
        | none => true)
  | .free => true
  | .relaxed => true

/-- The fit test (R42), conditions 1 to 5 in order. -/
def State.fits (s : State) (p : Pipe) (o : Offer) (m : ModeRecord) : Bool :=
  decide (o.f ≤ m.fmax.toNat ∧ (o.cadence = .relaxed → o.fr ≤ m.fmax.toNat)) &&
    decide (o.cadence = .relaxed → fitWindows p o m = 0) &&
    s.lockCondition p o &&
    decide (0 < fitBudget p o m) &&
    decide (m.hmin.toNat ≤ fitBudget p o m / modeLines m ∧ fitBudget p o m / modeLines m ≤ 65535)

/-- The next contract number: from 4,294,967,295 the counter wraps to 1 (R46). -/
def nextContractNumber (counter : Word) : Word := if counter = 0xFFFFFFFF#32 then 1 else counter + 1

/-- The contract of a pair that fits (R42, R46); `oi` and `mi` are the 1-based positions. -/
def offerContract (number : Word) (p : Pipe) (oi : Nat) (o : Offer) (mi : Nat) (m : ModeRecord) : Contract :=
  { number := number, offerIndex := oi, modeIndex := mi, v := m.v.toNat, vb := m.vb.toNat, n := modeLines m,
    hmin := m.hmin.toNat, f := o.f, h := fitBudget p o m / modeLines m, q := fitBudget p o m % modeLines m,
    w := fitWindows p o m, lw := fitWindowLength p o m, cadence := o.cadence,
    fr := if o.cadence = .relaxed then o.fr else o.f,
    offset := if o.cadence = .lockedRef ∨ o.cadence = .lockedPeer then o.offset else 0,
    trimMax := if o.cadence = .lockedRef ∨ o.cadence = .lockedPeer then o.trimMax else 0,
    clamped := decide (fitWindows p o m < o.w), raised := decide (o.lw < fitWindowLength p o m), fallback := false,
    reason := .offer }

/-- The fallback contract on mode 1 (R45). -/
def fallbackContract (number : Word) (noOffers : Bool) (m : ModeRecord) : Contract :=
  let f := max 200000 (modeLines m * m.hmin.toNat)
  { number := number, offerIndex := 0, modeIndex := 1, v := m.v.toNat, vb := m.vb.toNat, n := modeLines m,
    hmin := m.hmin.toNat, f := f, h := f / modeLines m, q := f % modeLines m, w := 0, lw := 0, cadence := .free, fr := f,
    offset := 0, trimMax := 0, clamped := false, raised := false, fallback := true,
    reason := if noOffers then .noOffers else .noFit }

/-- The first mode, in panel order from index `mi`, that an offer fits. -/
def State.firstMode (s : State) (p : Pipe) (o : Offer) : Nat → List ModeRecord → Option (Nat × ModeRecord)
  | _, [] => none
  | mi, m :: ms => if s.fits p o m then some (mi, m) else s.firstMode p o (mi + 1) ms

/-- The first pair that fits: offers in preference order outside, modes in panel order inside (R44). -/
def State.firstPair (s : State) (p : Pipe) (modes : List ModeRecord) :
    Nat → List Offer → Option (Nat × Offer × Nat × ModeRecord)
  | _, [] => none
  | oi, o :: os =>
    match s.firstMode p o 1 modes with
    | some (mi, m) => some (oi, o, mi, m)
    | none => s.firstPair p modes (oi + 1) os

/-- A mode record no panel gives: what mode 1 is taken as where the mode list is empty, which no selection meets (R44). -/
def absentMode : ModeRecord := { v := 0, vb := 0, wmax := 0, hmin := 0, lwMin := 0, fmax := 0 }

/-- The contract a selection of the pipe yields now (R44 to R46). -/
def State.selection (s : State) (p : Pipe) : Contract :=
  let x := s.pipe p
  let number := nextContractNumber x.pb.counter
  match s.firstPair p x.lc.modes 1 x.pb.offers with
  | some (oi, o, mi, m) => offerContract number p oi o mi m
  | none => fallbackContract number x.pb.offers.isEmpty (x.lc.modes.headD absentMode)

/-- Whether a pipe holds a LOCKED_REF contract: in force or selected (R47). -/
def PlanBuilder.holdsLockedRef (b : PlanBuilder) : Bool :=
  decide ((b.contract.map (·.cadence)) = some .lockedRef ∨ (b.selected.map (·.cadence)) = some .lockedRef)

/-- A selected contract with a different mode index than the contract in force waits (R50, R52). -/
def PlanBuilder.modeChangeWaiting (b : PlanBuilder) : Bool :=
  match b.selected, b.contract with
  | some x, some c => decide (x.modeIndex ≠ c.modeIndex)
  | _, _ => false

/-- The contract flags as coded in 12.3. -/
def Contract.flagsCode (c : Contract) : Nat := bit c.clamped + 2 * bit c.raised + 4 * bit c.fallback

/-- The cadence in force is a locked one. -/
def Contract.locked (c : Contract) : Bool := decide (c.cadence = .lockedRef ∨ c.cadence = .lockedPeer)

end Sys2Proof.Machine
end

