-- ==== Sys2Proof/Machine/Lock.lean ====
section
/-! DEFINITION. The lock of a pipe (chapter 6): entries to and exits from the lock states (R108 to R110, R113, R114),
the phase measurement (R111, R112), the trim adjustment (R115). -/

namespace Sys2Proof.Machine

/-- Change a pipe's lock fields; a change of the lock state sets NOTICE.PIPE (R101). -/
def State.setLock (s : State) (p : Pipe) (g : LockCtl → LockCtl) : State :=
  let t := s.modLock p g
  if (t.pipe p).lock.state = (s.pipe p).lock.state then t else t.noticePipe

/-- Enter a lock state and drop the phase history (R108). -/
def LockCtl.dropHistory (l : LockCtl) (state : LockState) : LockCtl :=
  { l with state := state, sourcePulse := none, silenceStart := none, measured := false, phaseError := 0, trim := 0,
           within := 0, beyond := 0 }

/-- HOLDOVER: the counts become 0 (R113). -/
def LockCtl.toHoldover (l : LockCtl) : LockCtl := { l with state := .holdover, within := 0, beyond := 0 }

/-- Whether a lock state takes part in measurement and silence watch (R111, R113). -/
def LockCtl.following (l : LockCtl) : Bool := decide (l.state = .seeking ∨ l.state = .locked)

/-- The value with the remainder of `raw` on division by F in −floor(F/2) to F − floor(F/2) − 1 (R111). -/
def reducePhase (f : Nat) (raw : Int) : Int := (raw + ((f / 2 : Nat) : Int)) % (f : Int) - ((f / 2 : Nat) : Int)

/-- The phase error of a frame start at `now` (R111). -/
def LockCtl.errorAt (l : LockCtl) (now : Word) (c : Contract) : Int :=
  reducePhase c.f (((now - l.sourcePulse.getD now).toNat : Int) - (c.offset : Int))

/-- The lock state and its counts after a measurement (R112). -/
def LockCtl.counted (l : LockCtl) (e : Int) : LockCtl :=
  match l.state with
  | .seeking =>
    if e.natAbs ≤ 16 then
      if l.within + 1 = 4 then { l with state := .locked, within := 0, beyond := 0 }
      else { l with within := l.within + 1 }
    else { l with within := 0 }
  | .locked =>
    if e.natAbs ≤ 64 then { l with beyond := 0 }
    else if l.beyond + 1 = 2 then { l with state := .seeking, within := 0, beyond := 0 }
    else { l with beyond := l.beyond + 1 }
  | .notLocking => l
  | .aligning => l
  | .holdover => l

/-- Measure a frame start under the contract in force (R111, R112); a move from LOCKED to SEEKING is LOCK_LOST. -/
def State.measureLock (s : State) (p : Pipe) (c : Contract) : State :=
  let l := (s.pipe p).lock
  let e := l.errorAt s.time c
  let t := s.setLock p fun x => { x.counted e with phaseError := e, measured := true }
  if l.state = .locked ∧ (l.counted e).state = .seeking then t.raisePipeFault p .lockLost else t

/-- A frame start after the first: measured in SEEKING and LOCKED, not measured otherwise (R111). -/
def State.measureIfFollowing (s : State) (p : Pipe) (c : Contract) : State :=
  if (s.pipe p).lock.following then s.measureLock p c else s.modLock p fun l => { l with measured := false }

/-- The lock state becomes HOLDOVER and REF_LOST is set (R109, R110, R113). -/
def State.loseSource (s : State) (p : Pipe) (g : LockCtl → LockCtl) : State :=
  (s.setLock p fun l => (g l).toHoldover).raisePipeFault p .refLost

/-- The last pulse of the source a contract names, if it was taken within 2·F before now (R110; log 12: the span's
first instant counts as within it). -/
def State.recentPulse (s : State) (p : Pipe) (c : Contract) : Option Word :=
  let pulse := match c.cadence with
    | .lockedRef => s.ref.lastPulse
    | .lockedPeer => (s.pipe (otherPipe p)).lock.lastFrameStart
    | .free => none
    | .relaxed => none
  pulse.filter fun t => decide (s.since t ≤ 2 * c.f)

/-- A contract goes into force at a frame start in place of another (R110). A move from LOCKED to SEEKING made here sets no
LOCK_LOST, which R112 sets at a measurement in LOCKED alone (log 32). -/
def State.lockAtChange (s : State) (p : Pipe) (old c : Contract) : State :=
  if c.locked then
    if c.cadence = old.cadence ∧ c.offset = old.offset then s.measureIfFollowing p c
    else
      match s.recentPulse p c with
      | some t =>
        (s.setLock p fun l =>
          { l with state := .seeking, sourcePulse := some t, silenceStart := some s.time, within := 0,
                   beyond := 0 }).measureLock p c
      | none => s.loseSource p fun l => { l with sourcePulse := none, silenceStart := none, measured := false }
  else s.setLock p fun l => l.dropHistory .notLocking

/-- How a frame comes to start (5.3): at the entry to ACTIVE, by an aligning pulse, by the alignment deadline, or at
the end of the frame before. -/
inductive StartKind where
  | entry | aligned | deadline | next
  deriving DecidableEq, Repr

/-- What a frame start does to the lock (R107, R109 to R111); `replaced` is the contract that the contract in force
has replaced at this start, if it has. An aligned start keeps the source pulse time of the last pulse taken: where a second
pulse came after the aligning one, that is the later (log 34). -/
def State.lockAtFrameStart (s : State) (p : Pipe) (how : StartKind) (replaced : Option Contract) : State :=
  let s := s.modLock p fun l => { l with lastFrameStart := some s.time }
  match how with
  | .entry => s.modLock p fun l => { l with measured := false }
  | .aligned =>
    s.setLock p fun l => { l with state := .seeking, silenceStart := some s.time, measured := false }
  | .deadline => s.loseSource p fun l => { l with measured := false }
  | .next =>
    match (s.pipe p).pb.contract, replaced with
    | some c, some old => s.lockAtChange p old c
    | some c, none => s.measureIfFollowing p c
    | none, _ => s

/-- A pulse of the pipe's source is taken now (R107, R114). -/
def State.takeLockPulse (s : State) (p : Pipe) : State :=
  s.setLock p fun l =>
    let l := if l.state = .holdover then { l with state := .seeking, within := 0, beyond := 0 } else l
    { l with sourcePulse := some s.time, silenceStart := some s.time }

/-- −e held to TrimMax (R115 steps 1 and 2). -/
def clampTrim (trimMax : Nat) (e : Int) : Int := max (-(trimMax : Int)) (min (trimMax : Int) (-e))

/-- The trim adjustment of a frame (R115). A frame whose start was measured and that has since passed through HOLDOVER
back to SEEKING is adjusted by its measurement (log 31). -/
def LockCtl.adjustment (l : LockCtl) (c : Contract) : Int :=
  if l.following ∧ l.measured = true then
    let x := clampTrim c.trimMax l.phaseError
    if (c.h : Int) + c.q + x < c.hmin then (c.hmin : Int) - c.h - c.q else x
  else 0

/-- The silence limit of the contract in force (R113). -/
def State.silenceLimitTU (s : State) (p : Pipe) : Option Nat :=
  match (s.pipe p).pb.contract with
  | some c =>
    match c.cadence with
    | .lockedRef => some (2 * s.ref.fref)
    | .lockedPeer => some (2 * c.f)
    | .free => none
    | .relaxed => none
  | none => none

/-- Whether the silence limit has passed since the silence start (R113). A contract that goes into force with a shorter
F can find it passed already (R110). -/
def State.silenceDue (s : State) (p : Pipe) : Bool :=
  (s.pipe p).lock.following &&
    match (s.pipe p).lock.silenceStart, s.silenceLimitTU p with
    | some t, some n => decide (n ≤ s.since t)
    | _, _ => false

end Sys2Proof.Machine
end

