-- ==== Sys2Proof/Machine/Messages.lean ====
section
/-! DEFINITION. The panel command link: messages as bytes with their CRC (12.6, R188), the checks of a received message
(R18), sending one message at a time (R19), and the marks of the line pacing output (12.6). -/

namespace Sys2Proof.Machine

/-- One bit of the CRC register: x^8 + x^6 + x^3 + x^2 + 1 (R188). -/
def crcBit (c : Byte) : Byte := if c.msb then (c <<< 1) ^^^ 0x4D else c <<< 1

/-- One byte into the CRC, most significant bit first (R188). -/
def crcByte (c b : Byte) : Byte := crcBit (crcBit (crcBit (crcBit (crcBit (crcBit (crcBit (crcBit (c ^^^ b))))))))

/-- CRC-8 of a byte string: the register starts at 0xFF, no final inversion (R188). -/
def crc8 (bs : List Byte) : Byte := bs.foldl crcByte 0xFF

/-! Part to panel. -/

def TxMessage.typeByte : TxMessage → Byte
  | .probe => 0xA1
  | .select _ => 0xA2
  | .frame _ _ => 0xA3
  | .hold _ => 0xA4

def TxMessage.payload : TxMessage → List Byte
  | .probe => []
  | .select m => [m]
  | .frame n w => [n, w]
  | .hold len => wordBytes len

/-- A message as sent: type, length, payload, CRC (2.1, 12.6). -/
def TxMessage.bytes (m : TxMessage) : List Byte :=
  let body := [m.typeByte] ++ u8 m.payload.length ++ m.payload
  body ++ [crc8 body]

/-- The answer timer a message starts when its last byte has been sent (R21, R27, R29). -/
def TxMessage.answerTimer : TxMessage → Nat
  | .probe => probeAnswerTU
  | .select _ => answerTU
  | .frame _ _ => answerTU
  | .hold _ => 0

/-- Begin sending a message now: 50 TU a byte (R19). -/
def State.beginSending (s : State) (p : Pipe) (q : QueuedMessage) : State :=
  s.modLc p fun lc =>
    { lc with sending := some { message := q.message, supervised := q.supervised,
                                endsAt := s.after (byteTU * q.message.bytes.length) } }

/-- Hand a message over to the link: it is sent at once, or waits its turn (R19). -/
def State.sendMessage (s : State) (p : Pipe) (message : TxMessage) (supervised : Bool) : State :=
  match (s.pipe p).lc.sending with
  | none => s.beginSending p { message := message, supervised := supervised }
  | some _ =>
    s.modLc p fun lc => { lc with waiting := lc.waiting ++ [{ message := message, supervised := supervised }] }

/-- Stop the answer timer: one that runs, and one that a message not yet sent would start (log 20). -/
def LinkCtl.stopTimer (lc : LinkCtl) : LinkCtl :=
  { lc with answerDeadline := none, sending := lc.sending.map fun x => { x with supervised := false },
            waiting := lc.waiting.map fun x => { x with supervised := false } }

/-! Panel to part. -/

/-- A received message that passed R18. -/
inductive RxMessage where
  | list (modes : List ModeRecord)
  | ack (echoType echoValue : Byte)
  | nak
  | panelFault (code : Byte)
  deriving DecidableEq, Repr

/-- A mode record from 14 bytes (12.6). -/
def modeOfBytes (bs : List Byte) : ModeRecord :=
  let g := fun i => bs.getD i 0
  { v := g 1 ++ g 0, vb := g 2, wmax := g 3, hmin := g 5 ++ g 4, lwMin := wordOfBytes (g 6) (g 7) (g 8) (g 9),
    fmax := wordOfBytes (g 10) (g 11) (g 12) (g 13) }

/-- `n` mode records from consecutive bytes. -/
def modesOfBytes : Nat → List Byte → List ModeRecord
  | 0, _ => []
  | n + 1, bs => modeOfBytes (bs.take 14) :: modesOfBytes n (bs.drop 14)

/-- A payload of the length its type needs (R18 steps 1 and 2, 12.6, R188). -/
def rxOfPayload (type : Byte) (payload : List Byte) : Option RxMessage :=
  match type, payload with
  | 0x61, count :: rest =>
    if rest.length = 14 * count.toNat then some (.list (modesOfBytes count.toNat rest)) else none
  | 0x62, [t, v] => some (.ack t v)
  | 0x63, [] => some .nak
  | 0x64, [code] => some (.panelFault code)
  | _, _ => none

/-- The three checks of R18 on the bytes of a message: type, length, CRC. -/
def rxOfBytes (bs : List Byte) : Option RxMessage :=
  match bs with
  | type :: len :: rest =>
    if rest.length = len.toNat + 1 ∧ crc8 (type :: len :: rest.dropLast) = rest.getLastD 0 then
      rxOfPayload type rest.dropLast
    else none
  | _ => none

/-! Line pacing output (12.6, R88). -/

/-- The frame mark of a frame number. -/
def frameMark (number : Word) : Word := 0x10000000#32 ||| (number &&& 0xFF#32)

/-- The release of a run of lines. -/
def releaseMark (firstLine lineCount : Nat) : Word :=
  0x20000000#32 ||| (BitVec.ofNat 32 (firstLine % 4096) <<< 12) ||| BitVec.ofNat 32 (lineCount % 4096)

/-- Emit a mark on the pipe's line pacing output (R88). -/
def State.emitMark (s : State) (p : Pipe) (mark : Word) : State := s.modFr p fun r => { r with lpo := r.lpo ++ [mark] }

end Sys2Proof.Machine
end

