-- ==== Sys2Proof/Machine/Plans.lean ====
section
/-! DEFINITION. Frame plans: the plan arithmetic (R63 to R67), quiet-span shifting (R71 to R74), building a plan and
writing it to the plan page (R59, R60, R75). -/

namespace Sys2Proof.Machine

/-- Nominal line counts of the bursts (R64). -/
def nominalCounts (v w : Nat) : List Nat :=
  (List.range (w + 1)).map fun i => if i < v % (w + 1) then v / (w + 1) + 1 else v / (w + 1)

/-- Whether a window that starts at `a` and lasts `lw` meets a quiet span (R71). -/
def collides (spans : List Span) (lw a : Nat) : Bool := spans.any fun x => decide (a < x.stop ∧ x.start < a + lw)

/-- The loop of R72: the shift count at which it stops. `fuel` is what ShiftMax leaves, `k` the shift count so far,
`next` the lines burst j+1 then holds; `a` is the window's nominal start. -/
def shiftLoop (spans : List Span) (lw h a : Nat) : Nat → Nat → Nat → Nat
  | 0, k, _ => k
  | fuel + 1, k, next =>
    if collides spans lw (a + k * h) ∧ 1 < next then shiftLoop spans lw h a fuel (k + 1) (next - 1) else k

/-- How a window is placed: lines moved, and whether it still collides and was restored (R72, R73). -/
structure Placement where
  shift : Nat
  noisy : Bool
  deriving DecidableEq, Repr

/-- Treat one window (R72, R73). -/
def placeWindow (spans : List Span) (shiftMax lw h a next : Nat) : Placement :=
  let k := shiftLoop spans lw h a shiftMax 0 next
  if collides spans lw (a + k * h) then { shift := 0, noisy := true } else { shift := k, noisy := false }

/-- Treat the windows in order of ordinal (R72). `before` is the lines of the bursts before the current one, `wins` the
windows before it, `cur` its line count so far; the list holds the nominal counts of the bursts after it. Each burst's
final line count, with the placement of the window after it. -/
def placeWindows (spans : List Span) (shiftMax lw h : Nat) : Nat → Nat → Nat → List Nat → List (Nat × Option Placement)
  | _, _, cur, [] => [(cur, none)]
  | before, wins, cur, next :: rest =>
    let x := placeWindow spans shiftMax lw h ((before + cur) * h + wins * lw) next
    (cur + x.shift, some x) ::
      placeWindows spans shiftMax lw h (before + cur + x.shift) (wins + 1) (next - x.shift) rest

/-- The burst and window slots from placed bursts, contiguous (R57, R65): `t` is the next slot's start, `line` the next
line, `j` the ordinal of the next window. -/
def layoutSlots (h lw : Nat) : Nat → Nat → Nat → List (Nat × Option Placement) → List Slot
  | _, _, _, [] => []
  | t, line, j, (n, none) :: rest => .burst t (n * h) line n :: layoutSlots h lw (t + n * h) (line + n) j rest
  | t, line, j, (n, some x) :: rest =>
    .burst t (n * h) line n :: .window (t + n * h) lw j x.shift x.noisy ::
      layoutSlots h lw (t + n * h + lw) (line + n) (j + 1) rest

/-- The bursts of a contract's plan with their windows. -/
def placedBursts (c : Contract) (spans : List Span) (shiftMax : Nat) : List (Nat × Option Placement) :=
  match nominalCounts c.v c.w with
  | [] => []
  | first :: rest => placeWindows spans shiftMax c.lw c.h 0 0 first rest

/-- All slots of a contract's plan (R57, R65, R66). -/
def planSlots (c : Contract) (spans : List Span) (shiftMax : Nat) : List Slot :=
  layoutSlots c.h c.lw 0 0 1 (placedBursts c spans shiftMax) ++
    [.blank (c.v * c.h + c.w * c.lw) ((c.vb - 1) * c.h) c.v (c.vb - 1),
     .trim (c.v * c.h + c.w * c.lw + (c.vb - 1) * c.h) (c.h + c.q)]

/-- The plan of a contract for a frame (R56). -/
def buildPlan (frame : Word) (c : Contract) (spans : List Span) (shiftMax : Nat) : Plan :=
  { frameNumber := frame, contractNumber := c.number, f := c.f, h := c.h, q := c.q, w := c.w, lw := c.lw, v := c.v,
    vb := c.vb, cadence := c.cadence, slots := planSlots c spans shiftMax }

/-- The quiet spans and ShiftMax a pipe's builder reads: PB0 has none (R58). -/
def State.quietOf (s : State) : Pipe → List Span × Nat
  | .p0 => ([], 0)
  | .p1 => (s.quietSpans, s.shiftMax)

/-- Build a plan, make it the next plan and write it to the plan page (R59, R60, R75). -/
def State.makePlan (s : State) (p : Pipe) (frame : Word) (c : Contract) : State :=
  let plan := buildPlan frame c (s.quietOf p).1 (s.quietOf p).2
  let t := s.modPb p fun b => { b with nextPlan := some plan }
  { t with mem := t.mem.writeBytes (planPageBase p) plan.bytes }

/-- The slot in progress, if any (R81). -/
def Runner.currentSlot (r : Runner) : Option Slot :=
  match r.state, r.plan with
  | .running, some pl => if r.slot = 0 then none else pl.slots[r.slot - 1]?
  | _, _ => none

/-- The slot after the one in progress, if any. -/
def Runner.followingSlot (r : Runner) : Option Slot :=
  match r.state, r.plan with
  | .running, some pl => if r.slot = 0 then none else pl.slots[r.slot]?
  | _, _ => none

/-- The instant a slot of the running frame starts (R78). -/
def Runner.slotStart (r : Runner) (x : Slot) : Word := tuAfter r.frameStart x.start

/-- The 1-based position of the burst that holds a line (R125). -/
def burstPosition : List Slot → Nat → Nat → Option Nat
  | [], _, _ => none
  | .burst _ _ first count :: rest, k, line =>
    if first ≤ line ∧ line < first + count then some k else burstPosition rest (k + 1) line
  | _ :: rest, k, line => burstPosition rest (k + 1) line

end Sys2Proof.Machine
end

