-- ==== Sys2Proof/Machine/Runner.lean ====
section
/-! DEFINITION. The Frame Runner (chapter 5) and its urgent band logic (chapter 7): frame starts (R85 to R87), pulses
(R83, R107), burst starts and completions (R88, R89, R127, R128). A function that may hand completions over answers,
beside the state, the completions of each owner, which the event then hands over together (R12). -/

namespace Sys2Proof.Machine

/-- A state, and the completions each owner hands over in the event. -/
abbrev Handing := State × List (List Completion)

/-- End an event's collecting: hand the completions over (R12). -/
def Handing.finish (x : Handing) : State := x.1.handOverGroups x.2

/-! Frame start. -/

/-- The contract that a frame start puts into force: a same-mode selected one, at the end of a frame (R51, R87). -/
def PlanBuilder.installAt (b : PlanBuilder) (how : StartKind) : Option Contract :=
  if how = .next ∧ b.phase = .selected then b.selected else none

/-- DONE, or DONE_FALLBACK for a fallback contract (R51). -/
def Contract.negotiateStatus (c : Contract) : Status := if c.reason = .offer then .done else .doneFallback

/-- The result words of a NEGOTIATE (R53, 12.2). -/
def Contract.negotiateResults (c : Contract) : List Word :=
  [c.number, BitVec.ofNat 32 (c.offerIndex + 256 * c.modeIndex + 65536 * c.flagsCode + 16777216 * c.reason.code)]

/-- The NEGOTIATE completion of a frame start (R87): in phase SELECTED after a same-mode selection, or INSTALLED. -/
def PlanBuilder.negotiateAt (b : PlanBuilder) (how : StartKind) : List Completion :=
  match b.negotiate, b.installAt how, b.contract with
  | some r, some c, _ => [r.complete c.negotiateStatus c.negotiateResults]
  | some r, none, some c =>
    if b.phase = .installed then [r.complete c.negotiateStatus c.negotiateResults] else []
  | _, _, _ => []

/-- The Plan Builder after a frame start: its next plan is taken (R61), a same-mode contract goes into force (R51), and
the phase of a NEGOTIATE that completes becomes NONE (R87). -/
def PlanBuilder.afterStart (b : PlanBuilder) (how : StartKind) : PlanBuilder :=
  match b.installAt how with
  | some c => { b with nextPlan := none, contract := some c, selected := none, phase := .none, negotiate := none }
  | none =>
    if b.phase = .installed ∧ b.contract.isSome = true then { b with nextPlan := none, phase := .none, negotiate := none }
    else { b with nextPlan := none }

/-- A band with no serving frame is given the frame that starts (R126). -/
def Band.serveBy (b : Band) (number : Word) : Band :=
  { b with serving := some (b.serving.getD number) }

/-- The runner after a frame start (R85 steps 1 to 4 and 9, R126). -/
def Runner.afterStart (r : Runner) (plan : Option Plan) (how : StartKind) (now : Word) : Runner :=
  { r with state := .running, plan := plan, slot := 1, frameNumber := r.frameNumber + 1, frameStart := now,
           lastLength := if how = .next then now - r.frameStart else 0, pullIn := false, alignDeadline := none,
           alignedStart := none, trimEnd := none, stretchLimit := none, frameNow := none,
           bands := r.bands.map fun b => b.serveBy (r.frameNumber + 1) }

/-- The window count a FRAME carries (R85 step 6). -/
def Runner.planWindows (r : Runner) : Nat := (r.plan.map (·.w)).getD 0

/-- Announce the frame to the panel: FRAME becomes the outstanding message (R29, R85 step 6). -/
def State.announceFrame (s : State) (p : Pipe) : State :=
  let r := (s.pipe p).fr
  let low : Byte := r.frameNumber.setWidth 8
  (s.modLc p fun lc => { lc.stopTimer with outstanding := some (.frame low) }).sendMessage p
    (.frame low (BitVec.ofNat 8 r.planWindows)) true

/-- Emit the release of a BURST slot; other slots emit no mark (R88, R89). -/
def State.releaseSlot (s : State) (p : Pipe) (slot : Option Slot) : State :=
  match slot with
  | some (.burst _ _ first count) => s.emitMark p (releaseMark first count)
  | _ => s

/-- A frame start of one pipe, but for its being a pulse of the other pipe's source (R85 to R87). -/
def State.startLocal (s : State) (p : Pipe) (how : StartKind) : Handing :=
  let b := (s.pipe p).pb
  let r := (s.pipe p).fr
  let t := s.modFr p fun r => r.afterStart b.nextPlan how s.time
  let t := t.modPb p fun b => b.afterStart how
  let t := t.emitMark p (frameMark (t.pipe p).fr.frameNumber)
  let t := t.announceFrame p
  let t := t.lockAtFrameStart p how (if (b.installAt how).isSome then b.contract else none)
  let t := t.pulsePins (.frameStart p)
  let t := t.releaseSlot p (t.pipe p).fr.currentSlot
  (t, [b.negotiateAt how,
       match r.frameNow with
       | some x => [x.complete .done [(t.pipe p).fr.frameNumber]]
       | none => []])

/-! Pulses. -/

/-- A pulse of the pipe's source: recorded for the lock, and the first pulse of a runner in ALIGNING (R83, R107). The
flag says that frame 1 starts in this event. -/
def State.takePulse (s : State) (p : Pipe) : State × Bool :=
  let t := s.takeLockPulse p
  match (s.pipe p).fr.state, (s.pipe p).fr.alignedStart, (s.pipe p).pb.contract with
  | .aligning, none, some c =>
    (t.modFr p fun r => { r with alignedStart := some (s.after c.offset), alignDeadline := none }, decide (c.offset = 0))
  | _, _, _ => (t, false)

/-- Whether the pipe follows a source under the contract in force. -/
def PipeState.follows (x : PipeState) (c : Cadence) : Bool := decide (x.pb.contract.map (·.cadence) = some c)

/-- A frame start (R85), which is also a peer pulse of the other pipe (R86, R107). -/
def State.startFrame (s : State) (p : Pipe) (how : StartKind) : Handing :=
  let x := s.startLocal p how
  let q := otherPipe p
  if (x.1.pipe q).follows .lockedPeer then
    let y := x.1.takePulse q
    if y.2 then
      let z := y.1.startLocal q .aligned
      (if (z.1.pipe p).follows .lockedPeer then (z.1.takePulse p).1 else z.1, x.2 ++ z.2)
    else (y.1, x.2)
  else x

/-- A reference pulse as the pipe takes it, if it follows the reference (R107). -/
def State.takeRefPulse (s : State) (p : Pipe) : State × Bool :=
  if (s.pipe p).follows .lockedRef then s.takePulse p else (s, false)

/-- Two frame starts in one event. -/
def State.startBoth (s : State) : List Pipe → Handing
  | [] => (s, [])
  | p :: ps =>
    let x := s.startFrame p .aligned
    let y := State.startBoth x.1 ps
    (y.1, x.2 ++ y.2)

/-- A reference pulse, accepted or generated (R107). Where it starts both runners the order is free (log 11). -/
def State.refPulse (s : State) : Handing :=
  let t := (s.modRef fun r => { r with lastPulse := some s.time }).pulsePins .reference
  let x := t.takeRefPulse .p0
  let y := x.1.takeRefPulse .p1
  match x.2, y.2 with
  | false, false => (y.1, [])
  | true, false => y.1.startFrame .p0 .aligned
  | false, true => y.1.startFrame .p1 .aligned
  | true, true => (y.1.draw).2.startBoth (permuteBy 2 (Config.pulseOrder (y.1.draw).1) [.p0, .p1])

/-! Urgent bands. -/

/-- Whether a burst's completion satisfies a band (R127). -/
def Band.satisfiedBy (b : Band) (frame : Word) (v first count : Nat) : Bool :=
  decide (b.serving = some frame) &&
    if b.wholeFrame then decide (first ≤ v - 1 ∧ v - 1 < first + count)
    else decide (first ≤ b.lastLine ∧ b.lastLine < first + count)

/-- A band's latency at an instant (R128). -/
def Band.latency (b : Band) (now : Word) : Word := now - b.intake

/-- Whether a band satisfied at an instant is late (R128). -/
def Band.late (b : Band) (now : Word) : Bool := decide (b.deadline < (b.latency now).toNat)

/-- The completion of a satisfied band (R128). -/
def Band.completion (b : Band) (now : Word) : Completion :=
  b.request.complete (if b.late now then .doneLate else .done) [b.latency now, b.serving.getD 0]

/-- A burst completion: the bands it satisfies complete, in intake order (R127, R128). -/
def State.burstCompleted (s : State) (p : Pipe) (first count : Nat) : Handing :=
  let r := (s.pipe p).fr
  let v := (r.plan.map (·.v)).getD 0
  let hit := r.bands.filter fun b => b.satisfiedBy r.frameNumber v first count
  let t := s.modFr p fun r =>
    { r with bands := r.bands.filter fun b => !b.satisfiedBy r.frameNumber v first count }
  let t := if hit.any fun b => b.late s.time then t.raisePipeFault p .lateBand else t
  (t, [hit.map fun b => b.completion s.time])

/-- The completion of a BURST slot that ends now; other slots have none. -/
def State.slotCompleted (s : State) (p : Pipe) (slot : Option Slot) : Handing :=
  match slot with
  | some (.burst _ _ first count) => s.burstCompleted p first count
  | _ => (s, [])

/-- The next slot of the plan begins: the current slot advances by 1 (5.5). -/
def State.nextSlot (s : State) (p : Pipe) : State := s.modFr p fun r => { r with slot := r.slot + 1 }

end Sys2Proof.Machine
end

