-- ==== Sys2Proof/Machine/Link.lean ====
section
/-! DEFINITION. The Link Controllers (chapter 2): entries to the link states (R21, R25, R27, R28, R33), link stops
(R35 to R37, R97), misses (R29, R30); and the end of a frame (R52, R94 to R96, R129). -/

namespace Sys2Proof.Machine

/-- Change the link state; a change sets NOTICE.PIPE (R20). -/
def State.setLink (s : State) (p : Pipe) (state : LinkState) : State :=
  let t := s.modLc p fun lc => { lc with state := state }
  if (s.pipe p).lc.state = state then t else t.noticePipe

/-- Entry to SELECTING under the contract in force (R27, R108). -/
def State.enterSelecting (s : State) (p : Pipe) (c : Contract) : State :=
  let mode : Byte := BitVec.ofNat 8 c.modeIndex
  let t := (s.setLink p .selecting).setLock p fun l => l.dropHistory .notLocking
  (t.modLc p fun lc => { lc.stopTimer with outstanding := some (.select mode) }).sendMessage p (.select mode) true

/-- Entry to PROBING (R21). -/
def State.enterProbing (s : State) (p : Pipe) : State :=
  ((s.setLink p .probing).modLc p fun lc =>
    { lc.stopTimer with modes := [], malformedSeen := false, probeCount := 1, quietEnd := none }).sendMessage p .probe true

/-- Admission: a selection, whose contract goes into force as the link enters SELECTING (R25, R48). -/
def State.beginAdmission (s : State) (p : Pipe) : State :=
  let c := s.selection p
  (s.modPb p fun b => { b with contract := some c, counter := c.number }).enterSelecting p c

/-- The result words of an ADMIT (R26, 12.2). -/
def Contract.admitResults (c : Contract) : List Word := [c.number, BitVec.ofNat 32 (c.modeIndex % 256)]

/-- Entry to ACTIVE (R28, R60, R82, R108). The frame number becomes 0 here, by R82, so that the pipe record of a pipe that
comes from a mode change and waits in ALIGNING shows 0, where R96 has the ended frame's number stay until frame 1
starts (log 36). -/
def State.enterActive (s : State) (p : Pipe) (c : Contract) : Handing :=
  let admitted := match (s.pipe p).lc.parkedAdmit with
    | some r => [r.complete .done c.admitResults]
    | none => []
  let t := (s.setLink p .active).modLc p fun lc =>
    { lc.stopTimer with outstanding := none, missedAcks := 0, parkedAdmit := none }
  let t := t.makePlan p 1 c
  if c.locked then
    let t := t.setLock p fun l => l.dropHistory .aligning
    (t.modFr p fun r =>
      { r with state := .aligning, frameNumber := 0, lastLength := 0, alignDeadline := some (s.after (2 * c.f)),
               alignedStart := none }, [admitted])
  else
    let t := t.setLock p fun l => l.dropHistory .notLocking
    let x := (t.modFr p fun r => { r with frameNumber := 0, lastLength := 0 }).startFrame p .entry
    (x.1, admitted :: x.2)

/-! Link stops. -/

/-- The runner after a link stop (R97). -/
def Runner.stopped (r : Runner) : Runner :=
  { r with state := .stopped, plan := none, slot := 0, pullIn := false, alignDeadline := none, alignedStart := none,
           trimEnd := none, stretchLimit := none }

/-- The Plan Builder after a link stop (R35, R38, R62). -/
def PlanBuilder.stopped (b : PlanBuilder) : PlanBuilder :=
  { b with contract := none, selected := none, nextPlan := none }

/-- Every parked request of the pipe is handed over ABORTED: ADMIT, NEGOTIATE, FRAME_NOW and each pending band
(R34, R35, R131). -/
def State.abortParked (s : State) (p : Pipe) : Handing :=
  let x := s.pipe p
  let t := s.modLc p fun lc => { lc with parkedAdmit := none }
  let t := t.modPb p fun b => { b with phase := .none, negotiate := none }
  (t.modFr p fun r => { r with frameNow := none, bands := [] },
   [abortedOf x.lc.parkedAdmit, abortedOf x.pb.negotiate, abortedOf x.fr.frameNow,
    x.fr.bands.map fun b => b.request.complete .aborted []])

/-- A link stop (R35 to R37, R97, R108, R146, R163). -/
def State.linkStop (s : State) (p : Pipe) : Handing :=
  let x := s.abortParked p
  let t := x.1.modLc p fun lc => { lc.stopTimer with outstanding := none }
  let t := t.modPb p fun b => b.stopped
  let t := t.modFr p fun r => r.stopped
  let t := t.setLock p fun l => l.dropHistory .notLocking
  (match p with
    | .p0 => t
    | .p1 => (t.endBankUse .s0).abandonFrame .s0, x.2)

/-- What ends when the link leaves its state for OFF or RECOVERY: a link stop from SELECTING and ACTIVE, else the parked
ADMIT alone (R24, R33, R35). -/
def State.leaveLink (s : State) (p : Pipe) : Handing :=
  if (s.pipe p).lc.state = .selecting ∨ (s.pipe p).lc.state = .active then s.linkStop p
  else (s.modLc p fun lc => { lc.stopTimer with parkedAdmit := none }, [abortedOf (s.pipe p).lc.parkedAdmit])

/-- Entry to RECOVERY (R33; R19: waiting messages are discarded; R27: SELECT_FAILED). -/
def State.enterRecovery (s : State) (p : Pipe) (reason : StopReason) : Handing :=
  let x := s.leaveLink p
  let t := (x.1.setLink p .recovery).modLc p fun lc =>
    { lc with stopReason := reason, recoveryCount := min 255 (lc.recoveryCount + 1), waiting := [],
              quietEnd := some (s.after quietIntervalTU) }
  let t := t.raisePipeFault p .recovery
  (if reason = .selectRefused ∨ reason = .selectTimeout then t.raisePipeFault p .selectFailed else t, x.2)

/-- Entry to OFF (R24; R19: waiting messages are discarded). -/
def State.enterOff (s : State) (p : Pipe) (reason : StopReason) : Handing :=
  let x := s.leaveLink p
  ((x.1.setLink p .off).modLc p fun lc => { lc with stopReason := reason, waiting := [], quietEnd := none }, x.2)

/-- A miss of a FRAME (R29); the third in a row takes the link to RECOVERY (R30). -/
def State.missFrame (s : State) (p : Pipe) : Handing :=
  let t := (s.modLc p fun lc =>
    { lc.stopTimer with outstanding := none, missedAcks := lc.missedAcks + 1 }).raisePipeFault p .ackMissed
  if 3 ≤ (t.pipe p).lc.missedAcks then t.enterRecovery p .ackMissed else (t, [])

/-! The end of a frame. -/

/-- A band pending without a serving frame when its frame ends into SELECTING (R129). -/
def Band.carryOver (b : Band) : Band := { b with wholeFrame := b.wholeFrame || b.serving.isNone }

/-- A frame ends with a mode change waiting: STOPPED, the selected contract in force, SELECTING (R52, R96, R129). -/
def State.endIntoSelecting (s : State) (p : Pipe) (c : Contract) : State :=
  let t := s.modFr p fun r =>
    { r with state := .stopped, plan := none, slot := 0, pullIn := false, trimEnd := none, stretchLimit := none,
             bands := r.bands.map Band.carryOver }
  (t.modPb p fun b => { b with contract := some c, selected := none, phase := .installed }).enterSelecting p c

/-- The frame ends: a mode change proceeds, or the next frame starts (R94, R95). -/
def State.endFrame (s : State) (p : Pipe) : Handing :=
  match (s.pipe p).pb.selected with
  | some c => if (s.pipe p).pb.modeChangeWaiting then (s.endIntoSelecting p c, []) else s.startFrame p .next
  | none => s.startFrame p .next

end Sys2Proof.Machine
end

