-- ==== Sys2Proof/Machine/Operands.lean ====
section
/-! DEFINITION. The operand forms: what a port address selects (R1, 1.2, 1.3), the fields of a request record and their
checks item by item (R10, R39, R68, R102, R124, R142, R150, R152, R180, R186, 12.2). A check answers the item index of
the first failing item. -/

namespace Sys2Proof.Machine

/-! Port addresses. -/

/-- What an aligned port address selects (R1, 1.2, 1.3). -/
inductive PortTarget where
  | cellWord (cell : Fin 16) (offset : Nat)
  | statusArea
  | planPage
  | claimWord (block : Fin 16)
  | blockWord
  | hostFree
  | ident
  | notice
  | noticeMask
  | control
  | time
  | unmapped
  deriving DecidableEq, Repr

/-- The aligned address of the word that holds a byte (R1). -/
def alignWord (a : Nat) : Nat := a / 4 * 4

/-- The region or register an aligned byte address falls on. -/
def portTarget (a : Nat) : PortTarget :=
  if a < 0x1000 then .cellWord (Fin.ofNat 16 (a / 256)) (a % 256)
  else if a < 0x1800 then .statusArea
  else if a < 0x2000 then .planPage
  else if a < 0xC000 then
    if (a - 0x2000) % 2560 = 0 then .claimWord (Fin.ofNat 16 ((a - 0x2000) / 2560)) else .blockWord
  else if a < 0x10000 then .hostFree
  else if a < 0x10004 then .ident
  else if a < 0x10008 then .notice
  else if a < 0x1000C then .noticeMask
  else if a < 0x10010 then .control
  else if a < 0x10014 then .time
  else .unmapped

/-! Fields of a request record, at the widths of 12.2. -/

def RequestRecord.u8 (r : RequestRecord) (offset : Nat) : Nat := (r.image.getD offset 0).toNat

def RequestRecord.u16 (r : RequestRecord) (offset : Nat) : Nat := r.u8 offset + 256 * r.u8 (offset + 1)

def RequestRecord.u32 (r : RequestRecord) (offset : Nat) : Nat := r.u16 offset + 65536 * r.u16 (offset + 2)

/-- The request kind: byte 0 of the code word (1.5). -/
def RequestRecord.kind (r : RequestRecord) : Nat := r.u8 0

/-- The host's tag: bytes 1 to 3 of the code word (1.5). -/
def RequestRecord.tag (r : RequestRecord) : BitVec 24 :=
  r.image.getD 3 0 ++ r.image.getD 2 0 ++ r.image.getD 1 0

def RequestRecord.parked (r : RequestRecord) : Parked := { cell := r.cell, tag := r.tag }

/-- The target byte as a pipe (1.7). -/
def RequestRecord.pipeTarget (r : RequestRecord) : Option Pipe :=
  if r.u8 0x08 = 0x00 then some .p0 else if r.u8 0x08 = 0x01 then some .p1 else none

/-- The target byte as a surface (1.7). -/
def RequestRecord.surfaceTarget (r : RequestRecord) : Option Surface :=
  if r.u8 0x08 = 0x10 then some .s0 else if r.u8 0x08 = 0x11 then some .s1 else none

/-! SET_OFFERS (R39). -/

def cadenceOfCode : Nat → Option Cadence
  | 1 => some .free
  | 2 => some .lockedRef
  | 3 => some .lockedPeer
  | 4 => some .relaxed
  | _ => none

/-- Whether an offer's fields lie in the ranges of the offer table (3.2), those its cadence leaves unchecked apart. -/
def Offer.inRange (o : Offer) : Bool :=
  decide (200000 ≤ o.f ∧ o.f ≤ 4000000 ∧ o.w ≤ 16 ∧ (o.lw = 0 ∨ 2000 ≤ o.lw ∧ o.lw ≤ 80000)) &&
  match o.cadence with
  | .free => true
  | .relaxed => decide (o.f ≤ o.fr ∧ o.fr ≤ 4000000)
  | .lockedRef => decide (o.offset < o.f ∧ 8 ≤ o.trimMax ∧ o.trimMax ≤ 2048)
  | .lockedPeer => decide (o.offset < o.f ∧ 8 ≤ o.trimMax ∧ o.trimMax ≤ 2048)

/-- Offer record k (12.2), if it passes its checks. -/
def RequestRecord.offer (r : RequestRecord) (k : Nat) : Option Offer :=
  let a := 0x24 + 20 * (k - 1)
  match cadenceOfCode (r.u8 (a + 19)) with
  | none => none
  | some c =>
    let o : Offer :=
      { f := r.u32 a, lw := r.u32 (a + 4), fr := r.u32 (a + 8), offset := r.u32 (a + 12), trimMax := r.u16 (a + 16),
        w := r.u8 (a + 18), cadence := c }
    if o.inRange then some o else none

/-- Items `k` to `k + n - 1`, each checked in order. -/
def checkItems {α : Type} (item : Nat → Option α) : Nat → Nat → Except Nat (List α)
  | 0, _ => .ok []
  | n + 1, k =>
    match item k with
    | none => .error k
    | some x =>
      match checkItems item n (k + 1) with
      | .error e => .error e
      | .ok xs => .ok (x :: xs)

/-- The auto-admit flag and the offers of a SET_OFFERS (R39). -/
def RequestRecord.setOffersArgs (r : RequestRecord) : Except Nat (Bool × List Offer) :=
  if 1 ≤ r.u8 0x20 ∧ r.u8 0x20 ≤ 7 ∧ r.u8 0x21 ≤ 1 then
    (checkItems r.offer (r.u8 0x20) 1).map fun os => (decide (r.u8 0x21 = 1), os)
  else .error 0

/-! SET_QUIET (R68, R69). -/

/-- Span k (12.2), if it passes its check. -/
def RequestRecord.span (r : RequestRecord) (k : Nat) : Option Span :=
  let x : Span := { start := r.u32 (0x24 + 8 * (k - 1)), stop := r.u32 (0x28 + 8 * (k - 1)) }
  if x.start < x.stop ∧ x.stop ≤ 4000000 then some x else none

/-- The ShiftMax and the spans, in the order given, of a SET_QUIET (R68). -/
def RequestRecord.setQuietArgs (r : RequestRecord) : Except Nat (Nat × List Span) :=
  if r.u8 0x20 ≤ 8 ∧ r.u8 0x21 ≤ 63 then
    (checkItems r.span (r.u8 0x20) 1).map fun xs => (r.u8 0x21, xs)
  else .error 0

/-- Insert a span into a list sorted by rising start, equal starts by rising end (R69). -/
def insertSpan (x : Span) : List Span → List Span
  | [] => [x]
  | y :: ys =>
    if x.start < y.start ∨ x.start = y.start ∧ x.stop ≤ y.stop then x :: y :: ys else y :: insertSpan x ys

def sortSpans : List Span → List Span
  | [] => []
  | x :: xs => insertSpan x (sortSpans xs)

/-- Pass along a sorted list with the span kept last: a span that overlaps or touches it is joined to it (R69). -/
def mergeSpansFrom (kept : Span) : List Span → List Span
  | [] => [kept]
  | y :: ys =>
    if y.start ≤ kept.stop then mergeSpansFrom { kept with stop := max kept.stop y.stop } ys
    else kept :: mergeSpansFrom y ys

def mergeSpans : List Span → List Span
  | [] => []
  | x :: xs => mergeSpansFrom x xs

/-- The stored form of a request's spans (R69). -/
def storedSpans (xs : List Span) : List Span := mergeSpans (sortSpans xs)

/-! URGENT_BAND (R124). -/

/-- First line, last line and deadline, checked against V of the contract in force, or 2160 without one. -/
def RequestRecord.bandArgs (r : RequestRecord) (v : Nat) : Except Nat (Nat × Nat × Nat) :=
  if r.u16 0x22 < r.u16 0x20 then .error 1
  else if v ≤ r.u16 0x22 then .error 2
  else if r.u32 0x24 < 1000 ∨ 8000000 < r.u32 0x24 then .error 3
  else .ok (r.u16 0x20, r.u16 0x22, r.u32 0x24)

/-! SET_REFERENCE (R102). -/

def refSourceOfCode : Nat → Option RefSource
  | 1 => some .internal
  | 2 => some .external
  | _ => none

def RequestRecord.setReferenceArgs (r : RequestRecord) : Except Nat (RefSource × Nat) :=
  match refSourceOfCode (r.u8 0x20) with
  | none => .error 1
  | some src => if 200000 ≤ r.u32 0x24 ∧ r.u32 0x24 ≤ 4000000 then .ok (src, r.u32 0x24) else .error 2

/-! SET_SURFACE (R150). -/

/-- The geometry a SET_SURFACE of a surface carries; surface 0 has no pad fields, and they are ignored. -/
def RequestRecord.setSurfaceArgs (r : RequestRecord) (k : Surface) : Except Nat Geometry :=
  let rows := r.u8 0x20
  let cols := r.u8 0x21
  let rowTime := r.u32 0x24
  let ip := r.u32 0x28
  let lp := r.u32 0x2C
  let slack := r.u32 0x30
  match k with
  | .s0 =>
    if rows < 4 ∨ 64 < rows then .error 1
    else if cols < 4 ∨ 48 < cols then .error 2
    else if 1024 < rows * cols then .error 3
    else if rowTime < 200 ∨ 20000 < rowTime then .error 4
    else .ok { rows := rows, cols := cols, rowTime := rowTime, padInterval := 0, padWindow := 0, slack := 0 }
  | .s1 =>
    if rows < 2 ∨ 16 < rows then .error 1
    else if cols < 2 ∨ 16 < cols then .error 2
    else if 1024 < rows * cols then .error 3
    else if rowTime < 200 ∨ 20000 < rowTime then .error 4
    else if ip < 20000 ∨ 2000000 < ip then .error 5
    else if lp < rowTime ∨ ip < lp + 1601 then .error 6
    else if ip ≤ slack then .error 7
    else .ok { rows := rows, cols := cols, rowTime := rowTime, padInterval := ip, padWindow := lp, slack := slack }

/-! SURFACE_ENABLE (R152), SET_BANK (R142). -/

def RequestRecord.enableArg (r : RequestRecord) : Except Nat Bool :=
  if r.u8 0x20 = 0 then .ok false else if r.u8 0x20 = 1 then .ok true else .error 1

def policyOfCode : Nat → Option Policy
  | 1 => some .equal
  | 2 => some .inCellFirst
  | 3 => some .padFirst
  | _ => none

def RequestRecord.policyArg (r : RequestRecord) : Except Nat Policy :=
  match policyOfCode (r.u8 0x20) with
  | none => .error 1
  | some p => .ok p

/-! SET_EVENT_PINS (R180). -/

def pipeOfSelector : Nat → Option Pipe
  | 0 => some .p0
  | 1 => some .p1
  | _ => none

def surfaceOfSelector : Nat → Option Surface
  | 0 => some .s0
  | 1 => some .s1
  | _ => none

/-- A pin entry's source code and selector (12.2); the selector of a source that takes none is ignored. -/
def pinSourceOfEntry (code selector : Nat) : Option PinSource :=
  match code with
  | 0 => some .none
  | 1 => (pipeOfSelector selector).map .frameStart
  | 2 => some .windowActive
  | 3 => (surfaceOfSelector selector).map .scanActive
  | 4 => (pipeOfSelector selector).map .locked
  | 5 => some .reference
  | 6 => some .reportPending
  | 7 => some .faultAny
  | _ => none

/-- The entry of item k, that is of EVT(k−1). -/
def RequestRecord.pinEntry (r : RequestRecord) (k : Nat) : Option PinSource :=
  pinSourceOfEntry (r.u8 (0x20 + 2 * (k - 1))) (r.u8 (0x21 + 2 * (k - 1)))

/-- The four entries of a SET_EVENT_PINS, items 1 to 4. -/
def RequestRecord.pinArgs (r : RequestRecord) : Except Nat (List PinSource) := checkItems r.pinEntry 4 1

/-! The valid ranges of a mode record (2.1, R22). -/

def modeValid (m : ModeRecord) : Bool :=
  decide (240 ≤ m.v.toNat ∧ m.v.toNat ≤ 2160 ∧ 4 ≤ m.vb.toNat ∧ 100 ≤ m.hmin.toNat ∧ m.hmin.toNat ≤ 4000 ∧
    m.wmax.toNat ≤ 16 ∧ 2000 ≤ m.lwMin.toNat ∧ m.lwMin.toNat ≤ 80000 ∧ 200000 ≤ m.fmax.toNat ∧
    m.fmax.toNat ≤ 4000000)

/-- Whether a received LIST is valid (R22). -/
def validModes (ms : List ModeRecord) : Bool := decide (1 ≤ ms.length ∧ ms.length ≤ 7) && ms.all modeValid

end Sys2Proof.Machine
end

