-- ==== Sys2Proof/Machine/LinkEvents.lean ====
section
/-! DEFINITION. What the panel sends (R18, R22, R27, R29, R31) and the link's own timers (R19, R23, R27, R29, R33):
MESSAGE_REJECTED to QUIET_INTERVAL_EXPIRY. -/

namespace Sys2Proof.Machine

/-- An event whose condition is `guard`: the state after it, every changed record rewritten; without the condition
there is no event (log 4). -/
def event (guard : Bool) (f : State → State) (s : State) : Result State := .next (if guard then publish s (f s) else s)

/-! Received messages. -/

/-- The most records a LIST can carry: 1 + 14·18 = 253 fits its length byte, 1 + 14·19 does not (R188). -/
def maxListRecords : Nat := 18

/-- A LIST (R22, R25): acted on in PROBING alone. -/
def State.receiveList (s : State) (p : Pipe) (modes : List ModeRecord) : State :=
  if (s.pipe p).lc.state ≠ .probing then s
  else if validModes modes then
    let t := (s.setLink p .held).modLc p fun lc => { lc.stopTimer with modes := modes }
    if (s.pipe p).lc.parkedAdmit.isSome ∨ (s.pipe p).pb.autoAdmit = true then t.beginAdmission p else t
  else s.modLc p fun lc => { lc with malformedSeen := true }

/-- An ACK (R27, R29). -/
def State.receiveAck (s : State) (p : Pipe) (echoType echoValue : Byte) : State :=
  match (s.pipe p).lc.state, (s.pipe p).lc.outstanding with
  | .selecting, some (.select mode) =>
    if echoType = 0xA2 ∧ echoValue = mode then
      match (s.pipe p).pb.contract with
      | some c => (s.enterActive p c).finish
      | none => s
    else s
  | .active, some (.frame number) =>
    if echoType = 0xA3 ∧ echoValue = number then
      s.modLc p fun lc => { lc.stopTimer with outstanding := none, missedAcks := 0 }
    else s
  | _, _ => s

/-- A NAK (R27, R29). -/
def State.receiveNak (s : State) (p : Pipe) : State :=
  match (s.pipe p).lc.state, (s.pipe p).lc.outstanding with
  | .selecting, _ => (s.enterRecovery p .selectRefused).finish
  | .active, some (.frame _) => (s.missFrame p).finish
  | _, _ => s

/-- A PANEL_FAULT (R21, R24, R25, R27, R31, R33): the code is stored in every state,
before READY too (log 38). -/
def State.receivePanelFault (s : State) (p : Pipe) (code : Byte) : State :=
  let t := s.modLc p fun lc => { lc with panelFault := code }
  match (s.pipe p).lc.state with
  | .held => (t.enterRecovery p .panelFault).finish
  | .selecting => (t.enterRecovery p .panelFault).finish
  | .active => (t.enterRecovery p .panelFault).finish
  | .off => t
  | .probing => t
  | .recovery => t

/-- A message that passed the checks of R18. -/
def State.receive (s : State) (p : Pipe) : RxMessage → State
  | .list modes => s.receiveList p modes
  | .ack t v => s.receiveAck p t v
  | .nak => s.receiveNak p
  | .panelFault code => s.receivePanelFault p code

/-- MESSAGE_REJECTED: bytes that fail a check of R18 are discarded; bytes that pass are the message they spell (log 18). -/
def execMessageRejected (p : Pipe) (bytes : List Byte) (s : State) : Result State :=
  .next (match rxOfBytes bytes with
    | some m => publish s (s.receive p m)
    | none => s)

/-- LIST. One of 19 or more records has no length byte that agrees, and is not received (R188). -/
def execList (p : Pipe) (modes : List ModeRecord) (s : State) : Result State :=
  event (decide (modes.length ≤ maxListRecords)) (fun t => t.receiveList p modes) s

/-- ACK. -/
def execAck (p : Pipe) (echoType echoValue : Byte) (s : State) : Result State :=
  event true (fun t => t.receiveAck p echoType echoValue) s

/-- NAK. -/
def execNak (p : Pipe) (s : State) : Result State := event true (fun t => t.receiveNak p) s

/-- PANEL_FAULT. -/
def execPanelFault (p : Pipe) (code : Byte) (s : State) : Result State :=
  event true (fun t => t.receivePanelFault p code) s

/-! Sending (R19). -/

/-- Whether the message being sent has been sent at this instant. -/
def State.sentNow (s : State) (p : Pipe) : Bool := s.isNow ((s.pipe p).lc.sending.map (·.endsAt))

/-- The first waiting message begins to be sent (R19). -/
def State.sendWaiting (s : State) (p : Pipe) : State :=
  match (s.pipe p).lc.waiting with
  | [] => s
  | q :: rest => (s.modLc p fun lc => { lc with waiting := rest }).beginSending p q

/-- The last byte of the message has been sent: the answer timer it supervises starts, the next message begins (R19). -/
def State.endSending (s : State) (p : Pipe) : State :=
  match (s.pipe p).lc.sending with
  | none => s
  | some x =>
    (s.modLc p fun lc =>
      { lc with sending := none, sent := lc.sent ++ [x.message],
                answerDeadline := if x.supervised then some (s.after x.message.answerTimer)
                  else lc.answerDeadline }).sendWaiting p

/-- MESSAGE_SENT. -/
def execMessageSent (p : Pipe) (s : State) : Result State := event (s.sentNow p) (fun t => t.endSending p) s

/-! Timers. -/

/-- Whether the answer timer expires at this instant with the link in a state. -/
def State.answerDue (s : State) (p : Pipe) (state : LinkState) : Bool :=
  decide ((s.pipe p).lc.state = state) && s.isNow (s.pipe p).lc.answerDeadline

/-- The answer timer expires in PROBING (R23). Each PROBE's timer runs from its last byte (R19), so an unanswered link
leaves PROBING later than the 16,000,000 TU of R23, by the PROBEs' sending times (log 29). -/
def State.probeExpired (s : State) (p : Pipe) : State :=
  let t := s.modLc p fun lc => { lc with answerDeadline := none }
  if (s.pipe p).lc.probeCount < 8 then
    (t.modLc p fun lc => { lc with probeCount := lc.probeCount + 1 }).sendMessage p .probe true
  else (t.enterOff p (if (s.pipe p).lc.malformedSeen then .badList else .noAnswer)).finish

/-- PROBE_TIMEOUT. -/
def execProbeTimeout (p : Pipe) (s : State) : Result State :=
  event (s.answerDue p .probing) (fun t => t.probeExpired p) s

/-- SELECT_TIMEOUT (R27). -/
def execSelectTimeout (p : Pipe) (s : State) : Result State :=
  event (s.answerDue p .selecting) (fun t => (t.enterRecovery p .selectTimeout).finish) s

/-- FRAME_ACK_TIMEOUT (R29). -/
def execFrameAckTimeout (p : Pipe) (s : State) : Result State :=
  event (s.answerDue p .active) (fun t => (t.missFrame p).finish) s

/-- Whether the quiet interval expires at this instant. -/
def State.quietDue (s : State) (p : Pipe) : Bool :=
  decide ((s.pipe p).lc.state = .recovery) && s.isNow (s.pipe p).lc.quietEnd

/-- QUIET_INTERVAL_EXPIRY (R33). -/
def execQuietIntervalExpiry (p : Pipe) (s : State) : Result State := event (s.quietDue p) (fun t => t.enterProbing p) s

end Sys2Proof.Machine
end

