-- ==== Sys2Proof/Machine/FrameEvents.lean ====
section
/-! DEFINITION. The frame events of a pipe (R83, R84, R89 to R95, R113) and the reference events (R104 to R106):
ALIGNED_START to SILENCE_LIMIT. -/

namespace Sys2Proof.Machine

/-! Frame 1 under a locked cadence. -/

/-- Whether frame 1 is due by its aligned start (R83). -/
def State.alignedDue (s : State) (p : Pipe) : Bool :=
  decide ((s.pipe p).fr.state = .aligning) && s.isNow (s.pipe p).fr.alignedStart

/-- Whether frame 1 is due by the alignment deadline (R84). -/
def State.alignDeadlineDue (s : State) (p : Pipe) : Bool :=
  decide ((s.pipe p).fr.state = .aligning ∧ (s.pipe p).fr.alignedStart = none) && s.isNow (s.pipe p).fr.alignDeadline

/-- ALIGNED_START. -/
def execAlignedStart (p : Pipe) (s : State) : Result State :=
  event (s.alignedDue p) (fun t => (t.startFrame p .aligned).finish) s

/-- ALIGNMENT_DEADLINE. -/
def execAlignmentDeadline (p : Pipe) (s : State) : Result State :=
  event (s.alignDeadlineDue p) (fun t => (t.startFrame p .deadline).finish) s

/-! Slots. -/

/-- The kinds of slot (R56). -/
inductive SlotKind where
  | burst | window | blank | trim
  deriving DecidableEq, Repr

def Slot.kind : Slot → SlotKind
  | .burst .. => .burst
  | .window .. => .window
  | .blank .. => .blank
  | .trim .. => .trim

/-- Whether the slot in progress is of kind `ends` and the one after it, of kind `starts`, starts at this instant (R78). -/
def State.slotDue (s : State) (p : Pipe) (ends starts : SlotKind) : Bool :=
  let r := (s.pipe p).fr
  match r.currentSlot, r.followingSlot with
  | some x, some y => decide (x.kind = ends ∧ y.kind = starts ∧ r.slotStart y = s.time)
  | _, _ => false

/-- A WINDOW ends and a BURST starts (R89, R91). -/
def State.startBurst (s : State) (p : Pipe) : State :=
  let t := s.nextSlot p
  t.releaseSlot p (t.pipe p).fr.currentSlot

/-- BURST_START. -/
def execBurstStart (p : Pipe) (s : State) : Result State := event (s.slotDue p .window .burst) (fun t => t.startBurst p) s

/-- The window request of the WINDOW slot that starts, if surface 0 is enabled (R90). -/
def State.raiseWindow (s : State) : State :=
  let r := s.pipes.p1.fr
  match r.currentSlot with
  | some (.window start len ordinal _ noisy) =>
    if s.surfaces.s0.enabled then
      s.requestArrives
        (s.windowRequest (tuAfter r.frameStart (start + len)) (r.frameNumber.setWidth 8) ordinal noisy)
    else s
  | _ => s

/-- The HOLD of the WINDOW slot that starts (R90). -/
def State.holdPanel (s : State) : State :=
  s.sendMessage .p1 (.hold (BitVec.ofNat 32 ((s.pipes.p1.fr.plan.map (·.lw)).getD 0))) false

/-- A BURST of pipe 1 completes and a WINDOW starts (R89, R90, R127). -/
def State.startWindow (s : State) : State :=
  let x := s.slotCompleted .p1 s.pipes.p1.fr.currentSlot
  Handing.finish (((x.1.nextSlot .p1).holdPanel).raiseWindow, x.2)

/-- WINDOW_START. -/
def execWindowStart (s : State) : Result State := event (s.slotDue .p1 .burst .window) State.startWindow s

/-- The staged selection of a plan point (R50). -/
def State.stagedSelection (s : State) (p : Pipe) : State :=
  if (s.pipe p).pb.phase = .staged then
    let c := s.selection p
    s.modPb p fun b => { b with selected := some c, counter := c.number, phase := .selected }
  else s

/-- The contract the next frame's plan is built from, if one is (R59). -/
def PlanBuilder.planSource (b : PlanBuilder) : Option Contract :=
  match b.selected with
  | some c => if b.modeChangeWaiting then none else some c
  | none => b.contract

/-- The plan point: the staged selection, then the next frame's plan (R59). -/
def State.planPoint (s : State) (p : Pipe) : State :=
  let t := s.stagedSelection p
  match (t.pipe p).pb.planSource with
  | some c => t.makePlan p ((t.pipe p).fr.frameNumber + 1) c
  | none => t

/-- The last BURST completes and BLANK starts: the plan point (R89, R92, R127). -/
def State.startBlank (s : State) (p : Pipe) : State :=
  let x := s.slotCompleted p (s.pipe p).fr.currentSlot
  Handing.finish ((x.1.nextSlot p).planPoint p, x.2)

/-- PLAN_POINT. -/
def execPlanPoint (p : Pipe) (s : State) : Result State := event (s.slotDue p .burst .blank) (fun t => t.startBlank p) s

/-- The trim adjustment the REF answers at a TRIM start (R93, R115). -/
def PipeState.trimNow (x : PipeState) : Int :=
  match x.pb.contract with
  | some c => x.lock.adjustment c
  | none => 0

/-- How long the trim line runs: H + Q + a, with H and Q of the current plan (R93). -/
def PipeState.trimLength (x : PipeState) : Nat :=
  match x.fr.plan with
  | some pl => ((pl.h : Int) + pl.q + x.trimNow).toNat
  | none => x.trimNow.toNat

/-- BLANK ends and TRIM starts (R93, R116). -/
def State.startTrim (s : State) (p : Pipe) : State :=
  s.modPipe p fun x =>
    { x with fr := { x.fr with slot := x.fr.slot + 1, trimEnd := some (s.after x.trimLength) },
             lock := { x.lock with trim := x.trimNow } }

/-- TRIM_START. -/
def execTrimStart (p : Pipe) (s : State) : Result State := event (s.slotDue p .blank .trim) (fun t => t.startTrim p) s

/-- Whether the trim line ends at this instant. -/
def State.trimDue (s : State) (p : Pipe) : Bool :=
  decide (((s.pipe p).fr.currentSlot.map Slot.kind) = some .trim) && s.isNow (s.pipe p).fr.trimEnd

/-- The stretch limit a frame that ends its trim line goes on to, if it stretches (R52, R94, R95, R118). A RELAXED frame with
a mode change waiting stretches as any other: its end includes its stretch, as R52 says, where the first case of R94 ends
it here (log 30). -/
def PipeState.stretchTo (x : PipeState) : Option Word :=
  match x.pb.contract with
  | some c =>
    if c.cadence = .relaxed ∧ c.f < c.fr ∧ x.fr.pullIn = false then
      some (tuAfter x.fr.frameStart c.fr)
    else none
  | none => none

/-- The trim line ends (R94; a RELAXED frame stretches before a mode change, R52, log 30). -/
def State.endTrim (s : State) (p : Pipe) : State :=
  match (s.pipe p).stretchTo with
  | some limit =>
    s.modFr p fun r => { r with state := .stretch, slot := 0, trimEnd := none, stretchLimit := some limit }
  | none => (s.endFrame p).finish

/-- TRIM_END. -/
def execTrimEnd (p : Pipe) (s : State) : Result State := event (s.trimDue p) (fun t => t.endTrim p) s

/-- Whether the stretch limit is reached at this instant. -/
def State.stretchDue (s : State) (p : Pipe) : Bool :=
  decide ((s.pipe p).fr.state = .stretch) && s.isNow (s.pipe p).fr.stretchLimit

/-- STRETCH_LIMIT (R95). -/
def execStretchLimit (p : Pipe) (s : State) : Result State := event (s.stretchDue p) (fun t => (t.endFrame p).finish) s

/-! The reference. -/

/-- Whether a REFSYNC edge at this instant is early (R105). -/
def State.edgeEarly (s : State) : Bool :=
  match s.ref.lastPulse with
  | none => false
  | some t => decide (s.since t < s.ref.fref / 2)

/-- A rising REFSYNC edge under EXTERNAL (R105, R106). An edge right after a SET_REFERENCE from EXTERNAL to EXTERNAL, at
the same instant, is the restarted source's first edge and accepted, where R103 has a pulse of the old source not taken
(log 35). -/
def State.takeEdge (s : State) : State :=
  if s.edgeEarly then s.modRef fun r => { r with earlyCount := min 65535 (r.earlyCount + 1) }
  else ((s.modRef fun r => { r with present := true }).refPulse).finish

/-- REFSYNC_EDGE; under INTERNAL edges are ignored (R104). Before READY every reset value stands, INTERNAL among them. -/
def execRefsyncEdge (s : State) : Result State := event (decide (s.ref.source = .external)) State.takeEdge s

/-- Whether the generator phase is reached at this instant (R104). -/
def State.generatorDue (s : State) : Bool := decide (s.ref.source = .internal) && s.isNow s.ref.genPhase

/-- A generated pulse; the phase advances by Fref (R104). -/
def State.generatePulse (s : State) : State :=
  ((s.modRef fun r => { r with genPhase := some (s.after r.fref) }).refPulse).finish

/-- GENERATED_PULSE. -/
def execGeneratedPulse (s : State) : Result State := event s.generatorDue State.generatePulse s

/-- Whether the absence instant is reached (R106). -/
def State.absenceDue (s : State) : Bool :=
  decide (s.ref.source = .external) && s.ref.present &&
    s.isNow (s.ref.lastPulse.map fun t => tuAfter t (2 * s.ref.fref))

/-- PRESENCE_ABSENT (R106). -/
def execPresenceAbsent (s : State) : Result State :=
  event s.absenceDue (fun t => t.modRef fun r => { r with present := false }) s

/-- SILENCE_LIMIT (R113). -/
def execSilenceLimit (p : Pipe) (s : State) : Result State := event (s.silenceDue p) (fun t => t.loseSource p id) s

end Sys2Proof.Machine
end

