-- ==== Sys2Proof/Machine/Requests.lean ====
section
/-! DEFINITION. The Request Intake (R9 to R13) and the decisions of the thirteen request kinds: REQUEST_TAKE,
COMPLETION_WRITE, SET_OFFERS to CLEAR_FAULTS. -/

namespace Sys2Proof.Machine

/-! The engine. -/

/-- Whether the engine takes a cell now (R9): it is idle, no completion waits, and the intake queue is not empty. -/
def State.canTake (s : State) : Bool :=
  decide (s.rqi.engine = .idle ∧ s.rqi.completions = [] ∧ s.rqi.intake ≠ [])

/-- A completion decided at a take is written at the end of that take (R11, R13). -/
def State.finishTake (s : State) (r : RequestRecord) (status : Status) (results : List Word) : State :=
  { s with rqi := { s.rqi with
      engine := .writing { cell := r.cell, tag := r.tag, status := status, item := none, results := results } s.time } }

/-- A BAD_VALUE with the index of the first failing item (R10, R13). -/
def State.finishBadValue (s : State) (r : RequestRecord) (item : Nat) : State :=
  { s with rqi := { s.rqi with
      engine := .writing { cell := r.cell, tag := r.tag, status := .badValue, item := some item, results := [] } s.time } }

/-- A request that parks: the cell becomes PARKED and the take ends (R9, R11). The caller lets the engine serve the
completion list. -/
def State.park (s : State) (r : RequestRecord) : State :=
  { s with cells := s.cells.set r.cell .parked, rqi := { s.rqi with engine := .idle } }

/-- The request record of a cell as it stands (R10). -/
def State.recordOf (s : State) (c : Fin 16) : RequestRecord := { cell := c, image := s.mem.readBytes (cellBase c) 256 }

/-- Whether a kind is known (R10 step 1). -/
def RequestRecord.known (r : RequestRecord) : Bool := decide (1 ≤ r.kind ∧ r.kind ≤ 13)

/-- Take the head of the intake queue (R10); an unknown kind completes UNKNOWN_KIND (log 15). -/
def State.take (s : State) : State :=
  match s.rqi.intake with
  | [] => s
  | c :: rest =>
    let r := s.recordOf c
    let t := { s with cells := s.cells.set c .taken, rqi := { s.rqi with intake := rest } }
    if r.known then { t with rqi := { t.rqi with engine := .taking r s.time } } else t.finishTake r .unknownKind []

/-- REQUEST_TAKE. -/
def execRequestTake (s : State) : Result State := .next (if s.canTake then s.take else s)

/-- Write a completion to its end (R13): body, code word 0, ownership, NOTICE.CELL; the engine is idle again (R9). -/
def State.endCompletion (s : State) (c : Completion) : State :=
  ({ s with mem := (c.writeBody s.mem).writeWord (cellBase c.cell) 0, cells := s.cells.set c.cell .hostOwned,
            rqi := { s.rqi with engine := .idle } }.noticeCell).serveCompletions

/-- COMPLETION_WRITE. -/
def execCompletionWrite (s : State) : Result State :=
  match s.rqi.engine with
  | .writing c _ => .next (s.endCompletion c)
  | .idle => .next s
  | .taking _ _ => .next s

/-- The request record whose take the engine is in, if it is of this kind. -/
def State.taken (s : State) (kind : Nat) : Option RequestRecord :=
  match s.rqi.engine with
  | .taking r _ => if r.kind = kind then some r else none
  | .idle => none
  | .writing _ _ => none

/-- The decision instant of a take of this kind (R10); with no such take there is none (log 4). -/
def decision (kind : Nat) (f : State → RequestRecord → State) (s : State) : Result State :=
  .next (match s.taken kind with
    | some r => publish s (f s r)
    | none => s)

/-! SET_OFFERS (R39, R40). -/

def State.decideSetOffers (s : State) (r : RequestRecord) : State :=
  match r.pipeTarget with
  | none => s.finishTake r .badTarget []
  | some p =>
    match r.setOffersArgs with
    | .error k => s.finishBadValue r k
    | .ok (auto, offers) =>
      let t := (s.finishTake r .done [BitVec.ofNat 32 offers.length]).modPb p fun b =>
        { b with offers := offers, autoAdmit := auto }
      if auto = true ∧ (s.pipe p).lc.state = .held then t.beginAdmission p else t

def execSetOffers (s : State) : Result State := decision 0x01 State.decideSetOffers s

/-! NEGOTIATE (R49). -/

def State.decideNegotiate (s : State) (r : RequestRecord) : State :=
  match r.pipeTarget with
  | none => s.finishTake r .badTarget []
  | some p =>
    if (s.pipe p).lc.state ≠ .active then s.finishTake r .wrongState []
    else if (s.pipe p).pb.negotiate.isSome then s.finishTake r .busy []
    else ((s.park r).modPb p fun b => { b with negotiate := some r.parked, phase := .staged }).serveCompletions

def execNegotiate (s : State) : Result State := decision 0x02 State.decideNegotiate s

/-! ADMIT (R25, R26). -/

/-- An ADMIT that would park (R11, R26). -/
def State.parkAdmit (s : State) (r : RequestRecord) (p : Pipe) : State :=
  if (s.pipe p).lc.parkedAdmit.isSome then s.finishTake r .busy []
  else
    let t := (s.park r).modLc p fun lc => { lc with parkedAdmit := some r.parked }
    (if (s.pipe p).lc.state = .held then t.beginAdmission p else t).serveCompletions

def State.decideAdmit (s : State) (r : RequestRecord) : State :=
  match r.pipeTarget with
  | none => s.finishTake r .badTarget []
  | some p =>
    match (s.pipe p).lc.state with
    | .off => s.finishTake r .wrongState []
    | .active => s.finishTake r .done ((s.pipe p).pb.contract.map Contract.admitResults |>.getD [0, 0])
    | .probing => s.parkAdmit r p
    | .held => s.parkAdmit r p
    | .selecting => s.parkAdmit r p
    | .recovery => s.parkAdmit r p

def execAdmit (s : State) : Result State := decision 0x03 State.decideAdmit s

/-! PIPE_RESTART (R34). -/

/-- OFF, every parked request aborted, PROBING (R34). -/
def State.restartPipe (s : State) (p : Pipe) : State :=
  let x := s.enterOff p .hostRestart
  let y := x.1.abortParked p
  Handing.finish (y.1.enterProbing p, x.2 ++ y.2)

def State.decidePipeRestart (s : State) (r : RequestRecord) : State :=
  match r.pipeTarget with
  | none => s.finishTake r .badTarget []
  | some p => (publish s ((s.finishTake r .done []).restartPipe p)).pipeRewritten s p

def execPipeRestart (s : State) : Result State :=
  .next (match s.taken 0x04 with
    | some r => s.decidePipeRestart r
    | none => s)

/-! SET_QUIET (R68, R69). -/

def State.decideSetQuiet (s : State) (r : RequestRecord) : State :=
  match r.pipeTarget with
  | none => s.finishTake r .badTarget []
  | some .p0 => s.finishTake r .badTarget []
  | some .p1 =>
    match r.setQuietArgs with
    | .error k => s.finishBadValue r k
    | .ok (shiftMax, spans) =>
      { s.finishTake r .done [BitVec.ofNat 32 (storedSpans spans).length] with
        quietSpans := storedSpans spans, shiftMax := shiftMax }

def execSetQuiet (s : State) : Result State := decision 0x05 State.decideSetQuiet s

/-! FRAME_NOW (R119 to R121) and URGENT_BAND (R119, R120, R124, R125). -/

/-- The contract in force is RELAXED. -/
def PipeState.relaxed (x : PipeState) : Bool := decide (x.pb.contract.map (·.cadence) = some .relaxed)

/-- What a request that parks and calls for a pull-in does under RELAXED (R119, R120): `served`, the frame that runs
already serves it. The engine then serves the completion list. -/
def State.callPullIn (s : State) (p : Pipe) (served : Bool) : State :=
  match (s.pipe p).relaxed, (s.pipe p).fr.state with
  | true, .running => (if served then s else s.modFr p fun r => { r with pullIn := true }).serveCompletions
  | true, .stretch => ((s.endFrame p).finish).serveCompletions
  | _, _ => s.serveCompletions

def State.decideFrameNow (s : State) (r : RequestRecord) : State :=
  match r.pipeTarget with
  | none => s.finishTake r .badTarget []
  | some p =>
    if ¬ ((s.pipe p).lc.state = .active ∧ (s.pipe p).relaxed = true) then s.finishTake r .wrongState []
    else if (s.pipe p).fr.frameNow.isSome then s.finishTake r .busy []
    else ((s.park r).modFr p fun x => { x with frameNow := some r.parked }).callPullIn p false

def execFrameNow (s : State) : Result State := decision 0x07 State.decideFrameNow s

/-- The serving frame of a band that parks now (R125). -/
def Runner.servingFor (r : Runner) (firstLine : Nat) : Option Word :=
  match r.state, r.plan with
  | .running, some pl =>
    match burstPosition pl.slots 1 firstLine with
    | some k => if r.slot < k then some r.frameNumber else none
    | none => none
  | _, _ => none

/-- V of the contract in force; without one, the bound of R124 is 2160. -/
def PlanBuilder.bandLines (b : PlanBuilder) : Nat := (b.contract.map (·.v)).getD 2160

def State.decideUrgentBand (s : State) (r : RequestRecord) : State :=
  match r.pipeTarget with
  | none => s.finishTake r .badTarget []
  | some p =>
    match r.bandArgs (s.pipe p).pb.bandLines with
    | .error k => s.finishBadValue r k
    | .ok (first, last, deadline) =>
      if (s.pipe p).lc.state ≠ .active then s.finishTake r .wrongState []
      else if 4 ≤ (s.pipe p).fr.bands.length then s.finishTake r .busy []
      else
        let serving := (s.pipe p).fr.servingFor first
        let band : Band :=
          { request := r.parked, firstLine := first, lastLine := last, deadline := deadline, intake := s.time,
            serving := serving, wholeFrame := false }
        ((s.park r).modFr p fun x => { x with bands := x.bands ++ [band] }).callPullIn p serving.isSome

def execUrgentBand (s : State) : Result State := decision 0x06 State.decideUrgentBand s

/-! SET_REFERENCE (R102, R103). -/

/-- The source started afresh (R103). -/
def State.startReference (s : State) (src : RefSource) (fref : Nat) : State :=
  s.modRef fun x =>
    { x with source := src, fref := fref, lastPulse := none, present := decide (src = .internal),
             genPhase := match src with
               | .internal => some (s.after fref)
               | .external => none }

def State.decideSetReference (s : State) (r : RequestRecord) : State :=
  match r.setReferenceArgs with
  | .error k => s.finishBadValue r k
  | .ok (src, fref) =>
    if s.pipes.p0.pb.holdsLockedRef ∨ s.pipes.p1.pb.holdsLockedRef then s.finishTake r .wrongState []
    else (s.finishTake r .done []).startReference src fref

def execSetReference (s : State) : Result State := decision 0x08 State.decideSetReference s

/-! SET_SURFACE (R150, R151, R155). -/

def State.setGeometry (s : State) (k : Surface) (geo : Geometry) : State :=
  let t := s.modSurf k fun x => { x with geo := geo }
  let t := (t.abortScan k).abandonFrame k
  match k with
  | .s0 => t
  | .s1 =>
    if t.pct.running then { t with pct := { t.pct with nextTick := some (s.after geo.padInterval) } } else t

def State.decideSetSurface (s : State) (r : RequestRecord) : State :=
  match r.surfaceTarget with
  | none => s.finishTake r .badTarget []
  | some k =>
    match r.setSurfaceArgs k with
    | .error e => s.finishBadValue r e
    | .ok geo => (s.finishTake r .done []).setGeometry k geo

def execSetSurface (s : State) : Result State := decision 0x09 State.decideSetSurface s

/-! SURFACE_ENABLE (R152 to R155). -/

/-- A surface that is off is turned on (R152, R154). -/
def State.turnOn (s : State) (k : Surface) : State :=
  let t := s.modSurf k fun x => { x with enabled := true }
  match k with
  | .s0 => t
  | .s1 => State.tickPad { t with pct := { t.pct with running := true, tickCount := 0 } }

/-- A surface that is on is turned off (R153, R155). -/
def State.turnOff (s : State) (k : Surface) : State :=
  let t := ((s.modSurf k fun x => { x with enabled := false }).endBankUse k).abandonFrame k
  match k with
  | .s0 => t
  | .s1 => { t with pct := { t.pct with running := false, nextTick := none } }

def State.decideSurfaceEnable (s : State) (r : RequestRecord) : State :=
  match r.surfaceTarget with
  | none => s.finishTake r .badTarget []
  | some k =>
    match r.enableArg with
    | .error e => s.finishBadValue r e
    | .ok on =>
      let t := s.finishTake r .done []
      match (s.surf k).enabled, on with
      | false, true => t.turnOn k
      | true, false => t.turnOff k
      | true, true => t
      | false, false => t

def execSurfaceEnable (s : State) : Result State := decision 0x0A State.decideSurfaceEnable s

/-! SET_BANK (R142). -/

def State.decideSetBank (s : State) (r : RequestRecord) : State :=
  match r.policyArg with
  | .error e => s.finishBadValue r e
  | .ok policy => (s.finishTake r .done []).modBank fun b => { b with policy := policy }

def execSetBank (s : State) : Result State := decision 0x0B State.decideSetBank s

/-! SET_EVENT_PINS (R180, R181). -/

/-- Each pin is handled by its entry (R181). -/
def State.assignPins (s : State) (entries : List PinSource) : State :=
  { s with pins := Vector.ofFn fun k => (s.pins[k]).assign (entries.getD k.val .none) }

def State.decideSetEventPins (s : State) (r : RequestRecord) : State :=
  match r.pinArgs with
  | .error e => s.finishBadValue r e
  | .ok entries => (s.finishTake r .done []).assignPins entries

def execSetEventPins (s : State) : Result State := decision 0x0C State.decideSetEventPins s

/-! CLEAR_FAULTS (R178). -/

def State.decideClearFaults (s : State) (r : RequestRecord) : State :=
  match r.pipeTarget, r.surfaceTarget with
  | some p, _ =>
    (s.finishTake r .done [BitVec.ofNat 32 (s.pipe p).faults.code]).modPipe p fun x => { x with faults := .none }
  | none, some k =>
    (s.finishTake r .done [BitVec.ofNat 32 (s.surf k).faults.code]).modSurf k fun x => { x with faults := .none }
  | none, none => s.finishTake r .badTarget []

def execClearFaults (s : State) : Result State := decision 0x0D State.decideClearFaults s

end Sys2Proof.Machine
end

