-- ==== Sys2Proof/Machine/HostPort.lean ====
section
/-! DEFINITION. The Shared Memory Port (R1 to R3, R6, R8, R16, R17), the resets and initialisation (R4, R5, R15):
POWER_ON_RESET to CLAIM_RETURN. -/

namespace Sys2Proof.Machine

/-! Host reads, which change nothing (R1). -/

/-- IDENT: vendor code 0x2C, revision 0x01, part code 0x0420, READY in bit 31 (R3, 12.1). -/
def identWord (ready : Bool) : Word := BitVec.ofNat 32 (0x2C010420 + 2147483648 * bit ready)

/-- A host read of one word (R1 to R3, R185). -/
def State.hostRead (s : State) (address : BitVec 24) : Word :=
  let a := alignWord address.toNat
  match portTarget a with
  | .ident => identWord s.ready
  | .notice => s.notice.toWord
  | .noticeMask => s.noticeMask.toWord
  | .control => 0
  | .time => s.time
  | .unmapped => 0
  | .cellWord _ _ => s.mem.readWord a
  | .statusArea => s.mem.readWord a
  | .planPage => s.mem.readWord a
  | .claimWord _ => s.mem.readWord a
  | .blockWord => s.mem.readWord a
  | .hostFree => s.mem.readWord a

/-! Resets (R4). -/

/-- A pipe's blocks at their reset values; what has been sent on the wires is not recalled (R20, R98). -/
def PipeState.afterReset (x : PipeState) : PipeState :=
  { PipeState.reset with lc := { LinkCtl.reset with sent := x.lc.sent }, fr := { Runner.reset with lpo := x.fr.lpo } }

/-- The start of either reset: registers, queues and blocks at their reset values (R4). Work Memory, the cells' states
and the FILLED marks are left to the kind of reset, and so are the model's own fields. -/
def State.restart (s : State) : State :=
  { s with
    time := 0, ready := false, notice := .none, noticeMask := .none,
    rqi := { intake := [], completions := [], engine := .idle },
    pipes := ⟨s.pipes.p0.afterReset, s.pipes.p1.afterReset⟩, quietSpans := [], shiftMax := 0, ref := .reset,
    bank := .reset, surfaces := ⟨.reset .s0, .reset .s1⟩, pct := .reset, rpw := .reset,
    pins := Vector.replicate 4 { source := .none, pulseEnd := none } }

/-- The start of power-on reset (R4, R6, R8): Work Memory reads zero (log 6), every cell is HOST_OWNED, no mark is set. -/
def State.powerOn (s : State) : State :=
  { s.restart with mem := [], cells := Vector.replicate 16 .hostOwned, filledMarks := Vector.replicate 16 false }

/-- The start of soft reset (R4): Work Memory, cells' states and FILLED marks stay; the block population is as R175
rebuilds it, and a write in progress is cut off (R174). -/
def State.softReset (s : State) : State := s.restart.rebuildBlocks

/-- POWER_ON_RESET. -/
def execPowerOnReset (s : State) : Result State := .next s.powerOn

/-! Initialisation (R5, R15, R175). -/

/-- The status word of an abandoned cell: ABANDONED, and the tag of its code word (R15). -/
def abandonedWord (code : Word) : Word := (code.extractLsb' 8 24 : BitVec 24) ++ Status.code .abandoned

/-- Abandon one cell: status word, then code word 0 (R15). -/
def State.abandonCell (s : State) (c : Fin 16) : State :=
  let code := s.mem.readWord (cellBase c)
  { s with mem := (s.mem.writeWord (cellBase c + 4) (abandonedWord code)).writeWord (cellBase c) 0,
           cells := s.cells.set c .hostOwned }

/-- The part-owned cells in rising index order. -/
def State.partOwned (s : State) : List (Fin 16) := (List.finRange 16).filter fun c => decide (s.cells[c] ≠ .hostOwned)

/-- Abandon every part-owned cell (R15). -/
def State.abandonCells (s : State) : State := s.partOwned.foldl State.abandonCell s

/-- What initialisation has done when it ends: cells abandoned, blocks rebuilt, status area and plan pages written (R4). -/
def State.initialised (s : State) : State := s.abandonCells.rebuildBlocks.writeStatusArea

/-- The initialisation completion event (R5): READY, both links enter PROBING, the generator phase becomes this instant
and the first pulse falls at it (R104). -/
def State.becomeReady (s : State) : State :=
  let t := ({ s with ready := true }.enterProbing .p0).enterProbing .p1
  (t.modRef fun r => { r with genPhase := some (s.after r.fref) }).refPulse.finish

/-- INITIALISATION_COMPLETION; without an initialisation in progress there is none (log 4). -/
def execInitialisationCompletion (s : State) : Result State :=
  .next (if s.ready then s else publish s.initialised s.initialised.becomeReady)

/-! Host writes (R1 to R3). -/

/-- A write to a word of a cell (R6). -/
def State.writeCell (s : State) (c : Fin 16) (offset : Nat) (value : Word) : State :=
  if s.ready = true ∧ s.cells[c] = .hostOwned then
    let t := { s with mem := s.mem.writeWord (cellBase c + offset) value }
    if offset = 0 ∧ value ≠ 0 then
      { t with cells := t.cells.set c .queued, rqi := { t.rqi with intake := t.rqi.intake ++ [c] } }
    else t
  else s

/-- A write to the claim word of a report block (R8, R166, R167). -/
def State.writeClaim (s : State) (b : Fin 16) (value : Word) : State :=
  if s.ready = true ∧ s.filledMarks[b] = true ∧ value = 0 then
    let t := { s with mem := s.mem.writeWord (blockBase b) 0, filledMarks := s.filledMarks.set b false }
    publish s (t.claimArrival b)
  else s

/-- A host write of one word, handled by the address it falls on (R1 to R3, R16, R17, R185; log 16). -/
def State.hostWrite (s : State) (address : Nat) (value : Word) : State :=
  let a := alignWord address
  match portTarget a with
  | .notice => { s with notice := s.notice.clearBy (.ofWord value) }
  | .noticeMask => { s with noticeMask := .ofWord value }
  | .control => if value.getLsbD 0 then s.softReset else s
  | .ident => s
  | .time => s
  | .unmapped => s
  | .statusArea => s
  | .planPage => s
  | .blockWord => s
  | .hostFree => if s.ready then { s with mem := s.mem.writeWord a value } else s
  | .cellWord c offset => s.writeCell c offset value
  | .claimWord b => s.writeClaim b value

/-! Port transactions (R1). -/

/-- The address of the word after the one that holds a byte (R1). Past the last word a 24-bit address reaches, the spec
gives none: a free value (log 33). -/
def nextPortAddress (a : BitVec 24) : BitVec 24 :=
  if alignWord a.toNat = 0xFFFFFC then Config.addressAfterTop else BitVec.ofNat 24 (alignWord a.toNat + 4)

/-- The addresses of the `n` words of a transaction that starts at an address, in the order served (R1). -/
def transactionAddresses : BitVec 24 → Nat → List (BitVec 24)
  | _, 0 => []
  | a, n + 1 => a :: transactionAddresses (nextPortAddress a) n

/-- The words a read transaction returns where all are served in one state (R1). -/
def State.hostReads (s : State) (start : BitVec 24) (n : Nat) : List Word :=
  (transactionAddresses start n).map s.hostRead

/-- The command that a write of one word is, by its own address and value (R1). -/
def hostWriteCommand (a : BitVec 24) (value : Word) : Instr :=
  match portTarget (alignWord a.toNat) with
  | .control => .softReset value
  | .notice => .noticeWrite value
  | .noticeMask => .noticeMaskWrite value
  | .ident => .registerWriteDiscarded a value
  | .time => .registerWriteDiscarded a value
  | .unmapped => .registerWriteDiscarded a value
  | .cellWord c offset =>
    if offset = 0 ∧ value ≠ 0 then .cellCodeWordWrite c value else .hostWorkMemoryWrite (a.setWidth 16) value
  | .claimWord b => if value = 0 then .claimReturn b else .hostWorkMemoryWrite (a.setWidth 16) value
  | .statusArea => .hostWorkMemoryWrite (a.setWidth 16) value
  | .planPage => .hostWorkMemoryWrite (a.setWidth 16) value
  | .blockWord => .hostWorkMemoryWrite (a.setWidth 16) value
  | .hostFree => .hostWorkMemoryWrite (a.setWidth 16) value

/-- The commands of a write transaction, one for each of its words, in the order served (R1, log 33). -/
def transactionCommands (start : BitVec 24) (words : List Word) : List Instr :=
  List.zipWith hostWriteCommand (transactionAddresses start words.length) words

/-- A write transaction of the host joins the commands that wait (R1). -/
def State.receiveTransaction (s : State) (start : BitVec 24) (words : List Word) : State :=
  { s with pending := s.pending ++ transactionCommands start words }

/-! The rows of the host writes. -/

/-- SOFT_RESET: a host write to CONTROL. -/
def execSoftReset (value : Word) (s : State) : Result State := .next (s.hostWrite 0x1000C value)

/-- NOTICE_WRITE. -/
def execNoticeWrite (value : Word) (s : State) : Result State := .next (s.hostWrite 0x10004 value)

/-- NOTICE_MASK_WRITE. -/
def execNoticeMaskWrite (value : Word) (s : State) : Result State := .next (s.hostWrite 0x10008 value)

/-- REGISTER_WRITE_DISCARDED: a host write to the port address given. -/
def execRegisterWriteDiscarded (address : BitVec 24) (value : Word) (s : State) : Result State :=
  .next (s.hostWrite address.toNat value)

/-- HOST_WORK_MEMORY_WRITE. -/
def execHostWorkMemoryWrite (address : BitVec 16) (value : Word) (s : State) : Result State :=
  .next (s.hostWrite address.toNat value)

/-- CELL_CODE_WORD_WRITE. -/
def execCellCodeWordWrite (cell : Fin 16) (value : Word) (s : State) : Result State :=
  .next (s.hostWrite (cellBase cell) value)

/-- CLAIM_RETURN. -/
def execClaimReturn (block : Fin 16) (s : State) : Result State := .next (s.hostWrite (blockBase block) 0)

end Sys2Proof.Machine
end

