-- ==== Sys2Proof/Machine/TouchEvents.lean ====
section
/-! DEFINITION. The touch events (R138, R140, R143, R154), the end of a report write (R170) and the end of a pin's
pulse (R182): PAD_TICK to PIN_PULSE_END. -/

namespace Sys2Proof.Machine

/-- Whether a pad tick is due (R154). -/
def State.tickDue (s : State) : Bool := s.pct.running && s.isNow s.pct.nextTick

/-- PAD_TICK. -/
def execPadTick (s : State) : Result State := event s.tickDue State.tickPad s

/-- Whether the retune ends at this instant (R138). -/
def State.retuneDue (s : State) : Bool := decide (s.bank.mode = .retuning ∧ s.bank.retuneEnd = s.time)

/-- RETUNE_END. -/
def execRetuneEnd (s : State) : Result State := event s.retuneDue State.endRetune s

/-- Whether the scan ends at this instant (R140). -/
def State.scanDue (s : State) : Bool := decide (s.bank.mode = .scanning ∧ s.bank.scanEnd = s.time)

/-- The scan of the granted request completes (R140). Each row moves the cursor and each join and take the held list, so
the surface's record is rewritten even where its fields end as they began (R149, R162, R168). -/
def State.endScan (s : State) (nodes : List Half) : State :=
  match s.bank.granted with
  | some r => (publish s (s.completeScan r nodes)).surfaceRewritten s r.surface
  | none => s

/-- SCAN_COMPLETION. -/
def execScanCompletion (nodes : List Half) (s : State) : Result State := .next (if s.scanDue then s.endScan nodes else s)

/-- Whether a surface's waiting request reaches its expiry at this instant (R143). -/
def State.expiryDue (s : State) (k : Surface) : Bool := s.isNow ((s.bank.waiting.get k).map (·.expiry))

/-- REQUEST_EXPIRY. -/
def execRequestExpiry (k : Surface) (s : State) : Result State := event (s.expiryDue k) (fun t => t.expireRequest k) s

/-- Whether the write in progress ends at this instant (R170). -/
def State.writeDue (s : State) : Bool := s.isNow (s.rpw.writer.map (·.endsAt))

/-- The write in progress completes (R170). -/
def State.endWrite (s : State) : State :=
  match s.rpw.writer with
  | some j => s.completeWrite j
  | none => s

/-- WRITE_COMPLETION. -/
def execWriteCompletion (s : State) : Result State := event s.writeDue State.endWrite s

/-- Whether a pin's pulse ends at this instant (R182). -/
def State.pulseEndDue (s : State) (pin : Fin 4) : Bool := s.isNow (s.pins[pin]).pulseEnd

/-- The pin goes low (R182). -/
def State.endPulse (s : State) (pin : Fin 4) : State :=
  { s with pins := s.pins.set pin { s.pins[pin] with pulseEnd := none } }

/-- PIN_PULSE_END. -/
def execPinPulseEnd (pin : Fin 4) (s : State) : Result State := event (s.pulseEndDue pin) (fun t => t.endPulse pin) s

end Sys2Proof.Machine
end

