-- ==== Sys2Proof/Machine/Dispatch.lean ====
section
/-! DEFINITION. The dispatch: one arm per command, each one direct call of its meaning. -/

namespace Sys2Proof.Machine

def exec (i : Instr) (s : State) : Host.Outcome State Fault Refusal :=
  match i with
  | .powerOnReset => Sys2Proof.Machine.execPowerOnReset s
  | .softReset value => Sys2Proof.Machine.execSoftReset value s
  | .initialisationCompletion => Sys2Proof.Machine.execInitialisationCompletion s
  | .noticeWrite value => Sys2Proof.Machine.execNoticeWrite value s
  | .noticeMaskWrite value => Sys2Proof.Machine.execNoticeMaskWrite value s
  | .registerWriteDiscarded address value => Sys2Proof.Machine.execRegisterWriteDiscarded address value s
  | .hostWorkMemoryWrite address value => Sys2Proof.Machine.execHostWorkMemoryWrite address value s
  | .cellCodeWordWrite cell value => Sys2Proof.Machine.execCellCodeWordWrite cell value s
  | .claimReturn block => Sys2Proof.Machine.execClaimReturn block s
  | .requestTake => Sys2Proof.Machine.execRequestTake s
  | .completionWrite => Sys2Proof.Machine.execCompletionWrite s
  | .setOffers => Sys2Proof.Machine.execSetOffers s
  | .negotiate => Sys2Proof.Machine.execNegotiate s
  | .admitPipe => Sys2Proof.Machine.execAdmit s
  | .pipeRestart => Sys2Proof.Machine.execPipeRestart s
  | .setQuiet => Sys2Proof.Machine.execSetQuiet s
  | .urgentBand => Sys2Proof.Machine.execUrgentBand s
  | .frameNow => Sys2Proof.Machine.execFrameNow s
  | .setReference => Sys2Proof.Machine.execSetReference s
  | .setSurface => Sys2Proof.Machine.execSetSurface s
  | .surfaceEnable => Sys2Proof.Machine.execSurfaceEnable s
  | .setBank => Sys2Proof.Machine.execSetBank s
  | .setEventPins => Sys2Proof.Machine.execSetEventPins s
  | .clearFaults => Sys2Proof.Machine.execClearFaults s
  | .messageRejected pipe bytes => Sys2Proof.Machine.execMessageRejected pipe bytes s
  | .list pipe modes => Sys2Proof.Machine.execList pipe modes s
  | .ack pipe echoType echoValue => Sys2Proof.Machine.execAck pipe echoType echoValue s
  | .nak pipe => Sys2Proof.Machine.execNak pipe s
  | .panelFault pipe code => Sys2Proof.Machine.execPanelFault pipe code s
  | .messageSent pipe => Sys2Proof.Machine.execMessageSent pipe s
  | .probeTimeout pipe => Sys2Proof.Machine.execProbeTimeout pipe s
  | .selectTimeout pipe => Sys2Proof.Machine.execSelectTimeout pipe s
  | .frameAckTimeout pipe => Sys2Proof.Machine.execFrameAckTimeout pipe s
  | .quietIntervalExpiry pipe => Sys2Proof.Machine.execQuietIntervalExpiry pipe s
  | .alignedStart pipe => Sys2Proof.Machine.execAlignedStart pipe s
  | .alignmentDeadline pipe => Sys2Proof.Machine.execAlignmentDeadline pipe s
  | .burstStart pipe => Sys2Proof.Machine.execBurstStart pipe s
  | .windowStart => Sys2Proof.Machine.execWindowStart s
  | .planPoint pipe => Sys2Proof.Machine.execPlanPoint pipe s
  | .trimStart pipe => Sys2Proof.Machine.execTrimStart pipe s
  | .trimEnd pipe => Sys2Proof.Machine.execTrimEnd pipe s
  | .stretchLimit pipe => Sys2Proof.Machine.execStretchLimit pipe s
  | .refsyncEdge => Sys2Proof.Machine.execRefsyncEdge s
  | .generatedPulse => Sys2Proof.Machine.execGeneratedPulse s
  | .presenceAbsent => Sys2Proof.Machine.execPresenceAbsent s
  | .silenceLimit pipe => Sys2Proof.Machine.execSilenceLimit pipe s
  | .padTick => Sys2Proof.Machine.execPadTick s
  | .retuneEnd => Sys2Proof.Machine.execRetuneEnd s
  | .scanCompletion nodes => Sys2Proof.Machine.execScanCompletion nodes s
  | .requestExpiry surface => Sys2Proof.Machine.execRequestExpiry surface s
  | .writeCompletion => Sys2Proof.Machine.execWriteCompletion s
  | .pinPulseEnd pin => Sys2Proof.Machine.execPinPulseEnd pin s

end Sys2Proof.Machine
end

