-- ==== Sys2Proof/Machine/Tick.lean ====
section
/-! DEFINITION. What the part does by itself when no command waits (logs 1, 2, 3): it takes an event that is due at this
instant, or lets one TU pass. -/

namespace Sys2Proof.Machine

/-- The command at which a request of a kind is decided (R10). -/
def decisionOf : Nat → Option Instr
  | 0x01 => some .setOffers
  | 0x02 => some .negotiate
  | 0x03 => some .admitPipe
  | 0x04 => some .pipeRestart
  | 0x05 => some .setQuiet
  | 0x06 => some .urgentBand
  | 0x07 => some .frameNow
  | 0x08 => some .setReference
  | 0x09 => some .setSurface
  | 0x0A => some .surfaceEnable
  | 0x0B => some .setBank
  | 0x0C => some .setEventPins
  | 0x0D => some .clearFaults
  | _ => none

/-- The command that ends what the engine does, and the instant by which it comes (R9). -/
def Engine.ending : Engine → Option (Instr × Word)
  | .idle => none
  | .taking r since => (decisionOf r.kind).map fun c => (c, tuAfter since engineTU)
  | .writing _ since => some (.completionWrite, tuAfter since engineTU)

/-- A command, if its condition holds. -/
def onlyIf (b : Bool) (c : Instr) : List Instr := if b then [c] else []

/-- The events of one pipe at this instant. -/
def State.pipeDue (s : State) (p : Pipe) : List Instr :=
  onlyIf (s.sentNow p) (.messageSent p) ++ onlyIf (s.answerDue p .probing) (.probeTimeout p) ++
  onlyIf (s.answerDue p .selecting) (.selectTimeout p) ++ onlyIf (s.answerDue p .active) (.frameAckTimeout p) ++
  onlyIf (s.quietDue p) (.quietIntervalExpiry p) ++ onlyIf (s.alignedDue p) (.alignedStart p) ++
  onlyIf (s.alignDeadlineDue p) (.alignmentDeadline p) ++ onlyIf (s.slotDue p .window .burst) (.burstStart p) ++
  onlyIf (s.slotDue p .burst .blank) (.planPoint p) ++ onlyIf (s.slotDue p .blank .trim) (.trimStart p) ++
  onlyIf (s.trimDue p) (.trimEnd p) ++ onlyIf (s.stretchDue p) (.stretchLimit p) ++
  onlyIf (s.silenceDue p) (.silenceLimit p)

/-- The events at this instant: what must come before time goes on. -/
def State.due (s : State) : List Instr :=
  onlyIf s.canTake .requestTake ++
  onlyIf (!s.ready && decide (s.time = BitVec.ofNat 32 initialisationTU)) .initialisationCompletion ++
  (match s.rqi.engine.ending with
    | some (c, by_) => onlyIf (decide (by_ = s.time)) c
    | none => []) ++
  s.pipeDue .p0 ++ s.pipeDue .p1 ++ onlyIf (s.slotDue .p1 .burst .window) .windowStart ++
  onlyIf s.generatorDue .generatedPulse ++ onlyIf s.absenceDue .presenceAbsent ++ onlyIf s.tickDue .padTick ++
  onlyIf s.retuneDue .retuneEnd ++ onlyIf s.scanDue (.scanCompletion []) ++
  onlyIf (s.expiryDue .s0) (.requestExpiry .s0) ++ onlyIf (s.expiryDue .s1) (.requestExpiry .s1) ++
  onlyIf s.writeDue .writeCompletion ++
  (List.finRange 4).flatMap fun k => onlyIf (s.pulseEndDue k) (.pinPulseEnd k)

/-- The events that may come at this instant or later: those of which the spec gives only the longest duration (log 3). -/
def State.possible (s : State) : List Instr :=
  onlyIf (!s.ready && decide (s.time ≠ BitVec.ofNat 32 initialisationTU)) .initialisationCompletion ++
  (match s.rqi.engine.ending with
    | some (c, by_) => onlyIf (decide (by_ ≠ s.time)) c
    | none => [])

/-! One TU passes. -/

/-- One step of an initialisation in progress: the next cell is abandoned (R15), or, when none is left, the block
population is rebuilt and the status area and plan pages are written (R4). A cell's two words show together, and so do all
the words of the status area and plan pages: how finely the writes show is the model's choice (log 6). -/
def State.initialiseStep (s : State) : State :=
  match s.partOwned with
  | c :: _ => s.abandonCell c
  | [] => s.rebuildBlocks.writeStatusArea

def State.initialiseSteps : Nat → State → State
  | 0, s => s
  | n + 1, s => State.initialiseSteps n s.initialiseStep

/-- Initialisation goes on by a free number of steps (log 6). -/
def State.initialiseOn (s : State) : State :=
  if s.ready then s else State.initialiseSteps (Config.writeProgress (s.draw).1 % 18) (s.draw).2

/-- A completion being written shows a free number of its first words; the code word still stands (R14, log 7). -/
def State.completionOn (s : State) : State :=
  match s.rqi.engine with
  | .writing c _ =>
    let t := (s.draw).2
    { t with mem := t.mem.writeWords (c.words.take (Config.writeProgress (s.draw).1 % (c.words.length + 1))) }
  | .idle => s
  | .taking _ _ => s

/-- A report being written shows a free number of its first words; the claim word still reads 0 (R169, log 8). -/
def State.reportOn (s : State) : State :=
  match s.rpw.writer with
  | some j =>
    let t := (s.draw).2
    { t with mem := j.writePart (Config.writeProgress (s.draw).1 % (j.size + 1)) t.mem }
  | none => s

/-- One TU passes (00_scope, Time). -/
def State.passTime (s : State) : State := ({ s with time := s.time + 1 }.initialiseOn.completionOn).reportOn

/-- Take one of several options by a free value: `go`, if it is among them, is to let time pass. -/
def State.choose (s : State) (options : List Instr) (go : Bool) : Result State :=
  let t := (s.draw).2
  match options[Config.schedule (s.draw).1 % (options.length + bit go)]? with
  | some c => exec c t
  | none => .next t.passTime

/-- What the part does when no command waits. -/
def State.tick (s : State) : Result State :=
  match s.due, s.possible with
  | [], [] => .next s.passTime
  | [c], [] => exec c s
  | [], more => s.choose more true
  | now, more => s.choose (now ++ more) false

end Sys2Proof.Machine
end

