-- ==== Sys2Proof/WellFormed.lean ====
section
/-! DEFINITION. Which commands are well formed: operands that the row's own condition admits. A command that is not is
still given an effect (logs 16, 18): the port serves a write by its address, and received bytes are what they spell.
And which commands are host writes and resets. -/

namespace Sys2Proof

open Machine

/-- A write that REGISTER_WRITE_DISCARDED stands for: IDENT, TIME or an address that selects nothing (R1, R3). -/
def discardedTarget : PortTarget → Bool
  | .ident => true
  | .time => true
  | .unmapped => true
  | _ => false

/-- A Work Memory word that HOST_WORK_MEMORY_WRITE stands for: no code word and no claim word given back, which have
rows of their own (R2). -/
def workMemoryTarget (value : Word) : PortTarget → Bool
  | .cellWord _ offset => decide (offset ≠ 0 ∨ value = 0)
  | .claimWord _ => decide (value ≠ 0)
  | .statusArea => true
  | .planPage => true
  | .blockWord => true
  | .hostFree => true
  | _ => false

/-- Well-formed commands. -/
def Instr.wellFormed : Instr → Bool
  | .powerOnReset => true
  | .softReset value => value.getLsbD 0
  | .initialisationCompletion => true
  | .noticeWrite _ => true
  | .noticeMaskWrite _ => true
  | .registerWriteDiscarded address _ => discardedTarget (portTarget (alignWord address.toNat))
  | .hostWorkMemoryWrite address value => workMemoryTarget value (portTarget (alignWord address.toNat))
  | .cellCodeWordWrite _ value => decide (value ≠ 0)
  | .claimReturn _ => true
  | .requestTake => true
  | .completionWrite => true
  | .setOffers => true
  | .negotiate => true
  | .admitPipe => true
  | .pipeRestart => true
  | .setQuiet => true
  | .urgentBand => true
  | .frameNow => true
  | .setReference => true
  | .setSurface => true
  | .surfaceEnable => true
  | .setBank => true
  | .setEventPins => true
  | .clearFaults => true
  | .messageRejected _ bytes => (rxOfBytes bytes).isNone
  | .list _ modes => decide (modes.length ≤ 18)
  | .ack _ _ _ => true
  | .nak _ => true
  | .panelFault _ _ => true
  | .messageSent _ => true
  | .probeTimeout _ => true
  | .selectTimeout _ => true
  | .frameAckTimeout _ => true
  | .quietIntervalExpiry _ => true
  | .alignedStart _ => true
  | .alignmentDeadline _ => true
  | .burstStart pipe => decide (pipe = .p1)
  | .windowStart => true
  | .planPoint _ => true
  | .trimStart _ => true
  | .trimEnd _ => true
  | .stretchLimit _ => true
  | .refsyncEdge => true
  | .generatedPulse => true
  | .presenceAbsent => true
  | .silenceLimit _ => true
  | .padTick => true
  | .retuneEnd => true
  | .scanCompletion _ => true
  | .requestExpiry _ => true
  | .writeCompletion => true
  | .pinPulseEnd _ => true

/-- The port address and value of a command that is a host write. -/
def Instr.portWrite : Instr → Option (Nat × Word)
  | .softReset value => some (0x1000C, value)
  | .noticeWrite value => some (0x10004, value)
  | .noticeMaskWrite value => some (0x10008, value)
  | .registerWriteDiscarded address value => some (address.toNat, value)
  | .hostWorkMemoryWrite address value => some (address.toNat, value)
  | .cellCodeWordWrite cell value => some (cellBase cell, value)
  | .claimReturn block => some (blockBase block, 0)
  | _ => none

/-- Whether a command is a reset: POR_N, or a write to CONTROL with RESET set (R3, R4). -/
def Instr.resets (c : Instr) : Bool :=
  match c with
  | .powerOnReset => true
  | _ =>
    match c.portWrite with
    | some (a, v) => decide (portTarget (alignWord a) = .control) && v.getLsbD 0
    | none => false

end Sys2Proof
end

