-- ==== Sys2Proof/Safety.lean ====
section
/-! DEFINITION. What a safe state is: the properties of the whole part that the spec states of every moment and that
every step keeps. -/

namespace Sys2Proof.Machine

/-! Cells and requests (R6, R7, R11, R12). -/

/-- The cell of the request the engine takes or whose completion it writes. -/
def Engine.cells : Engine → List (Fin 16)
  | .idle => []
  | .taking r _ => [r.cell]
  | .writing c _ => [c.cell]

/-- The cells of the requests parked for a pipe. -/
def PipeState.parkedCells (x : PipeState) : List (Fin 16) :=
  x.lc.parkedAdmit.toList.map (·.cell) ++ x.pb.negotiate.toList.map (·.cell) ++ x.fr.frameNow.toList.map (·.cell) ++
    x.fr.bands.map (·.request.cell)

/-- The cells of the requests that wait with an owner, or for the engine to write their completion. -/
def State.waitingCells (s : State) : List (Fin 16) :=
  s.rqi.completions.map (·.cell) ++ s.pipes.p0.parkedCells ++ s.pipes.p1.parkedCells

/-- Every place a request can be in. -/
def State.requestCells (s : State) : List (Fin 16) := s.rqi.intake ++ s.rqi.engine.cells ++ s.waitingCells

/-- Every part-owned cell is in exactly one place, its state says which (R6), and its code word is non-zero exactly
while it is part-owned. Before READY the queues are empty and cells keep their states (R4). -/
def State.cellsSafe (s : State) : Prop :=
  (∀ c : Fin 16, s.cells[c] = .hostOwned ↔ s.mem.readWord (cellBase c) = 0) ∧
  if s.ready then
    s.requestCells.Nodup ∧
    (∀ c : Fin 16, s.cells[c] = .queued ↔ c ∈ s.rqi.intake) ∧
    (∀ c : Fin 16, s.cells[c] = .taken → c ∈ s.rqi.engine.cells) ∧
    (∀ c : Fin 16, s.cells[c] = .parked → c ∈ s.rqi.engine.cells ∨ c ∈ s.waitingCells) ∧
    (∀ c ∈ s.waitingCells, s.cells[c] = .parked) ∧
    (∀ c ∈ s.rqi.engine.cells, s.cells[c] ≠ .hostOwned)
  else s.requestCells = []

/-! Links, contracts, runners and locks (R35, R38, R61, R81, R85, R108). -/

/-- The first slot of a plan is a BURST (R57). -/
def Plan.startsWithBurst (x : Plan) : Prop := (x.slots.head?.map Slot.kind) = some .burst

/-- Whether the pipe's plan point has passed in the frame that runs, or frame 1 is still to start: the next frame's plan
is due (R61). -/
def Runner.planDue (r : Runner) : Bool :=
  match r.state with
  | .aligning => true
  | .stretch => true
  | .stopped => false
  | .running => decide (r.currentSlot.map Slot.kind = some .blank ∨ r.currentSlot.map Slot.kind = some .trim)

/-- How the blocks of one pipe agree with one another. -/
structure PipeState.coherent (x : PipeState) : Prop where
  /-- "The pipe holds a contract exactly while its link is SELECTING or ACTIVE" (R35). -/
  contract  : x.pb.contract.isSome = true ↔ x.lc.state = .selecting ∨ x.lc.state = .active
  /-- The phase is NONE exactly while no NEGOTIATE is parked (R38). -/
  phase     : x.pb.phase = .none ↔ x.pb.negotiate = none
  /-- A selected contract exists exactly while the phase is SELECTED (R38). -/
  selected  : x.pb.selected.isSome = true ↔ x.pb.phase = .selected
  /-- STAGED waits for a plan point of an ACTIVE pipe (R49, R50). -/
  staged    : x.pb.phase = .staged → x.lc.state = .active
  /-- SELECTED waits for the end of the frame that runs (R38). -/
  waits     : x.pb.phase = .selected → x.fr.state = .running ∨ x.fr.state = .stretch
  /-- INSTALLED waits for the first frame under the new contract (R38, R52). -/
  installed : x.pb.phase = .installed → x.lc.state = .selecting ∨ x.fr.state = .aligning
  /-- FRAME_NOW and bands are parked for a SELECTING or ACTIVE pipe (R35, R131). -/
  waiting   : x.fr.frameNow.isSome = true ∨ x.fr.bands ≠ [] → x.lc.state = .selecting ∨ x.lc.state = .active
  /-- The runner runs exactly while the link is ACTIVE (R81). -/
  runner    : x.fr.state = .stopped ↔ x.lc.state ≠ .active
  /-- The current plan is present in RUNNING and STRETCH and absent otherwise (R81). -/
  plan      : x.fr.plan.isSome = true ↔ x.fr.state = .running ∨ x.fr.state = .stretch
  /-- The next plan is there when a frame start needs it (R61, R85), and begins with a BURST (R57). -/
  nextPlan  : x.fr.planDue = true → x.pb.modeChangeWaiting = false → x.pb.nextPlan.isSome = true
  bursts    : ∀ pl, x.pb.nextPlan = some pl → pl.startsWithBurst
  /-- The lock and the runner align together, under a locked contract (R82, R108). -/
  aligning  : x.fr.state = .aligning ↔ x.lock.state = .aligning
  /-- A pipe takes part in the lock exactly while it is ACTIVE under a locked contract (R108 to R110). -/
  locking   : x.lock.state ≠ .notLocking ↔
    x.lc.state = .active ∧ (x.pb.contract.map Contract.locked) = some true
  /-- Only a RELAXED frame stretches (R94). -/
  stretch   : x.fr.state = .stretch → (x.pb.contract.map (·.cadence)) = some .relaxed

/-- The contract in force or the selected one is LOCKED_PEER. -/
def PlanBuilder.holdsPeer (b : PlanBuilder) : Prop :=
  b.contract.map (·.cadence) = some .lockedPeer ∨ b.selected.map (·.cadence) = some .lockedPeer

/-- "The two pipes cannot end up following each other" (R43). -/
def State.peersApart (s : State) : Prop := ¬ (s.pipes.p0.pb.holdsPeer ∧ s.pipes.p1.pb.holdsPeer)

/-- Both pipes agree within themselves and do not follow each other; before READY both links are OFF and the engine is
idle (R5, R20). -/
def State.pipesSafe (s : State) : Prop :=
  (∀ p, (s.pipe p).coherent) ∧ s.peersApart ∧
  (s.ready = false → s.rqi.engine = .idle ∧ ∀ p, (s.pipe p).lc.state = .off)

/-! The bank (R132, R133). -/

/-- The granted request is of the bank surface, absent in PARKED and present in SCANNING; the waiting set is empty in
PARKED; a waiting request is of its own surface. -/
def State.bankSafe (s : State) : Prop :=
  (∀ r, s.bank.granted = some r → r.surface = s.bank.surface) ∧
  (s.bank.mode = .parked → s.bank.granted = none ∧ s.bank.waiting.s0 = none ∧ s.bank.waiting.s1 = none) ∧
  (s.bank.mode = .scanning → s.bank.granted.isSome = true) ∧
  (∀ k r, s.bank.waiting.get k = some r → r.surface = k)

/-- The bank holds and keeps waiting requests of enabled surfaces alone (R133), and the pad timer runs exactly while
surface 1 is enabled (R154). -/
def State.sensingSafe (s : State) : Prop :=
  (∀ r, s.bank.granted = some r → (s.surf r.surface).enabled = true) ∧
  (∀ k r, s.bank.waiting.get k = some r → (s.surf k).enabled = true) ∧
  s.pct.running = (s.surf .s1).enabled

/-! Report blocks (R165, R166). -/

/-- A block is FREE exactly while it is in the free list, WRITING exactly while it is the current block, and FILLED
exactly while its mark is set and its claim word is non-zero; sequence numbers are never 0. -/
def State.blocksSafe (s : State) : Prop :=
  s.rpw.freeList.Nodup ∧
  (∀ b : Fin 16, s.rpw.blocks[b] = .free ↔ b ∈ s.rpw.freeList) ∧
  (∀ b : Fin 16, s.rpw.blocks[b] = .writing ↔ (s.rpw.writer.map (·.block)) = some b) ∧
  (∀ b : Fin 16, s.rpw.blocks[b] = .filled ↔ s.filledMarks[b] = true) ∧
  (∀ b : Fin 16, s.rpw.blocks[b] = .filled ↔ s.mem.readWord (blockBase b) ≠ 0) ∧
  ∀ k, s.rpw.nextSeq.get k ≠ 0

/-! Bounds of the state tables. -/

/-- The values of a contract (R46), made of a mode (2.1), an offer (3.2) or the fallback (R45), and the fit test (R41, R42).
The fallback alone may last longer than 4,000,000 TU, up to 2,415 lines of 4,000. -/
structure Contract.inRange (c : Contract) : Prop where
  number   : c.number ≠ 0
  indexes  : c.offerIndex ≤ 7 ∧ 1 ≤ c.modeIndex ∧ c.modeIndex ≤ 7
  lines    : 240 ≤ c.v ∧ c.v ≤ 2160 ∧ 4 ≤ c.vb ∧ c.vb ≤ 255 ∧ c.n = c.v + c.vb
  period   : 100 ≤ c.hmin ∧ c.hmin ≤ 4000 ∧ c.hmin ≤ c.h ∧ c.h ≤ 65535
  windows  : c.w ≤ 16 ∧ c.lw ≤ 80000
  frame    : 200000 ≤ c.f ∧ c.f ≤ c.fr ∧ c.fr ≤ (if c.fallback then 9660000 else 4000000)
  budget   : c.n * c.h + c.q + c.w * c.lw = c.f ∧ c.q < c.n
  trimMax  : c.trimMax ≤ 2048
  lock     : c.locked = true → c.fallback = false ∧ c.offset < c.f ∧ 8 ≤ c.trimMax

/-- The lines and the deadline of a band (R123, R124); no mode has more than 2160 lines. -/
def Band.inRange (b : Band) : Prop :=
  b.firstLine ≤ b.lastLine ∧ b.lastLine < 2160 ∧ 1000 ≤ b.deadline ∧ b.deadline ≤ 8000000

/-- The bounds of one pipe's fields (R20, R38, R81, R101, R123). -/
structure PipeState.bounded (x : PipeState) : Prop where
  /-- 0 to 7 mode records, each valid (R20, R22). -/
  modes      : x.lc.modes.length ≤ 7 ∧ x.lc.modes.all modeValid = true
  /-- A link beyond PROBING has the modes of a valid LIST (R22). -/
  listed     : x.lc.state = .held ∨ x.lc.state = .selecting ∨ x.lc.state = .active → x.lc.modes ≠ []
  probeCount : x.lc.probeCount ≤ 8
  /-- 0 to 3, and the third miss ends ACTIVE (R30). -/
  missedAcks : x.lc.missedAcks ≤ 3 ∧ (x.lc.state = .active → x.lc.missedAcks ≤ 2)
  recoveries : x.lc.recoveryCount ≤ 255
  offers     : x.pb.offers.length ≤ 7 ∧ x.pb.offers.all Offer.inRange = true
  contracts  : ∀ c, x.pb.contract = some c ∨ x.pb.selected = some c → c.inRange
  /-- Up to 17 bursts, 16 windows, BLANK and TRIM (R57). -/
  plans      : ∀ pl, x.fr.plan = some pl ∨ x.pb.nextPlan = some pl → pl.slots.length ≤ 35
  /-- From 1 to the plan's slot count in RUNNING, 0 in every other state (R81). -/
  slot       : x.fr.slot ≤ 35 ∧ (x.fr.state ≠ .running → x.fr.slot = 0) ∧
    ∀ pl, x.fr.state = .running → x.fr.plan = some pl → 1 ≤ x.fr.slot ∧ x.fr.slot ≤ pl.slots.length
  /-- Present only in ALIGNING, and one of them at most (R81). -/
  aligning   : (x.fr.state ≠ .aligning → x.fr.alignDeadline = none ∧ x.fr.alignedStart = none) ∧
    (x.fr.alignDeadline = none ∨ x.fr.alignedStart = none)
  counts     : x.lock.within ≤ 3 ∧ x.lock.beyond ≤ 1
  phaseError : -2000000 ≤ x.lock.phaseError ∧ x.lock.phaseError ≤ 1999999
  trim       : -2048 ≤ x.lock.trim ∧ x.lock.trim ≤ 2048
  bands      : x.fr.bands.length ≤ 4 ∧ ∀ b ∈ x.fr.bands, b.inRange
  /-- A band that waits for its frame under the contract it was checked against names lines of that contract (R124, R129). -/
  bandLines  : ∀ b ∈ x.fr.bands, b.serving = none → b.wholeFrame = false →
    ∀ c, x.pb.contract = some c → b.lastLine < c.v

/-- The ranges of a geometry; surface 0 has no pad fields (R149, R150). -/
def Geometry.inRange (g : Geometry) : Surface → Prop
  | .s0 => 4 ≤ g.rows ∧ g.rows ≤ 64 ∧ 4 ≤ g.cols ∧ g.cols ≤ 48 ∧ g.rows * g.cols ≤ 1024 ∧ 200 ≤ g.rowTime ∧
      g.rowTime ≤ 20000 ∧ g.padInterval = 0 ∧ g.padWindow = 0 ∧ g.slack = 0
  | .s1 => 2 ≤ g.rows ∧ g.rows ≤ 16 ∧ 2 ≤ g.cols ∧ g.cols ≤ 16 ∧ 200 ≤ g.rowTime ∧ g.rowTime ≤ 20000 ∧
      20000 ≤ g.padInterval ∧ g.padInterval ≤ 2000000 ∧ g.rowTime ≤ g.padWindow ∧ g.padWindow + 1601 ≤ g.padInterval ∧
      g.slack < g.padInterval

/-- The bounds of one surface's fields (R149). -/
structure SurfaceState.bounded (x : SurfaceState) (k : Surface) : Prop where
  geometry : x.geo.inRange k
  cursor   : x.cursor < x.geo.rows
  /-- "the rows taken so far, which are always exactly as many as the row cursor gives" -/
  rows     : x.asm.rows.length = x.cursor
  /-- "C node values for each row taken" -/
  nodes    : ∀ r ∈ x.asm.rows, r.nodes.length = x.geo.cols
  /-- "absent while no row has been taken" -/
  firstRow : x.asm.firstRow = none ↔ x.cursor = 0
  counts   : x.asm.used ≤ x.cursor ∧ x.asm.noisyRows ≤ x.cursor ∧ x.asm.lost ≤ 65535
  held     : x.held.length ≤ 2
  skip     : x.skip ≤ 65535

/-- Quiet spans as PB1 stores them: 0 to 8, each of R68's range, rising, none overlapping or touching another (R58). -/
def spansStored (spans : List Span) : Prop :=
  spans.length ≤ 8 ∧ (∀ x ∈ spans, x.start < x.stop ∧ x.stop ≤ 4000000) ∧
  spans.Pairwise fun x y => x.stop < y.start

/-- The bounds of the whole part's fields: both pipes', both surfaces', the quiet spans and ShiftMax (R58, R68), the reference
(R100), and the scan rows (R132). -/
def State.bounded (s : State) : Prop :=
  (∀ p, (s.pipe p).bounded) ∧ (∀ k, (s.surf k).bounded k) ∧ spansStored s.quietSpans ∧ s.shiftMax ≤ 63 ∧
  (200000 ≤ s.ref.fref ∧ s.ref.fref ≤ 4000000 ∧ s.ref.earlyCount ≤ 65535) ∧ s.bank.scanRows ≤ 4294967295

/-! Work Memory and the status area (R2, R20, R99, R100, R147, R149). -/

/-- Once READY, each status record shows the fields of its block, with the version word. -/
def State.mirrored (s : State) : Prop :=
  s.ready = true →
    (∀ p, s.mem.readBytes (pipeRecordBase p) 512 = s.pipeRecord p) ∧
    (∀ k, s.mem.readBytes (surfaceRecordBase k) 128 = s.surfaceRecord k) ∧
    s.mem.readBytes bankRecordBase 64 = s.bank.bytes ∧
    s.mem.readBytes refRecordBase 64 = s.ref.bytes

/-- A safe state. -/
def State.safe (s : State) : Prop :=
  s.mem.wf ∧ s.cellsSafe ∧ s.pipesSafe ∧ s.bankSafe ∧ s.sensingSafe ∧ s.blocksSafe ∧ s.bounded ∧ s.mirrored

end Sys2Proof.Machine
end

