-- ==== Sys2Proof/Effects.lean ====
section
/-! DEFINITION. The terms in which a command's effect is stated: the next state field by field, written flat from the
rules of each event, apart from the operations that compute it. -/

namespace Sys2Proof.Machine

/-! What a command changes, and nothing else. -/

/-- A state without Work Memory, the records' version words and the count of free values drawn: all that a command
changes by its own rules. -/
def State.bare (s : State) : State :=
  { s with
    mem := [], free := 0,
    pipes := ⟨{ s.pipes.p0 with version := 0 }, { s.pipes.p1 with version := 0 }⟩,
    surfaces := ⟨{ s.surfaces.s0 with version := 0 }, { s.surfaces.s1 with version := 0 }⟩,
    bank := { s.bank with version := 0 },
    ref := { s.ref with version := 0 } }

/-- Whether an address lies in the `n` bytes from `base`. -/
def inRange (a base n : Nat) : Prop := base ≤ a ∧ a < base + n

/-- The addresses of the status records whose version words differ between two states: those rewritten. -/
def State.recordChanged (s t : State) (a : Nat) : Prop :=
  (∃ p, inRange a (pipeRecordBase p) 512 ∧ (s.pipe p).version ≠ (t.pipe p).version) ∨
  (∃ k, inRange a (surfaceRecordBase k) 128 ∧ (s.surf k).version ≠ (t.surf k).version) ∨
  (inRange a bankRecordBase 64 ∧ s.bank.version ≠ t.bank.version) ∨
  (inRange a refRecordBase 64 ∧ s.ref.version ≠ t.ref.version)

/-- A command takes `s` to a next state with every field as in `u`, and every byte of Work Memory as in `u` but those of
the status records that the command rewrites. -/
def Becomes (c : Instr) (s u : State) : Prop :=
  ∃ t, exec c s = .next t ∧ t.bare = u.bare ∧ ∀ a, ¬ s.recordChanged t a → t.mem.read a = u.mem.read a

/-- NOTICE after an event that took the links, locks and fault sets from `s` to `u`: a changed link or lock state sets
PIPE (R20, R101), a changed fault set sets FAULT (R177). -/
def State.noted (u s : State) : State :=
  let pipeChanged := fun p => decide ((u.pipe p).lc.state ≠ (s.pipe p).lc.state ∨
    (u.pipe p).lock.state ≠ (s.pipe p).lock.state)
  let faultsChanged := decide ((u.pipe .p0).faults ≠ (s.pipe .p0).faults ∨ (u.pipe .p1).faults ≠ (s.pipe .p1).faults ∨
    (u.surf .s0).faults ≠ (s.surf .s0).faults ∨ (u.surf .s1).faults ≠ (s.surf .s1).faults)
  { u with notice := { u.notice with pipe := u.notice.pipe || pipeChanged .p0 || pipeChanged .p1,
                                     fault := u.notice.fault || faultsChanged } }

/-- A state with one pipe's blocks replaced. -/
def State.withPipe (s : State) (p : Pipe) (x : PipeState) : State := { s with pipes := s.pipes.set p x }

/-- A state with one surface's fields replaced. -/
def State.withSurf (s : State) (k : Surface) (x : SurfaceState) : State := { s with surfaces := s.surfaces.set k x }

/-- Set some flags of a pipe's fault set (R177). -/
def PipeFaults.plus (x : PipeFaults) (fs : List PipeFault) : PipeFaults := fs.foldl PipeFaults.put x

/-! Requests (R9 to R13). -/

/-- The engine is in the take of a request of a kind. -/
def State.takes (s : State) (kind : Nat) (r : RequestRecord) : Prop :=
  r.kind = kind ∧ ∃ since, s.rqi.engine = .taking r since

/-- The request completes at its decision instant: the engine goes on to write this completion (R11). -/
def State.answer (s : State) (r : RequestRecord) (status : Status) (item : Option Nat) (results : List Word) : State :=
  { s with rqi := { s.rqi with
      engine := .writing { cell := r.cell, tag := r.tag, status := status, item := item, results := results } s.time } }

/-- An idle engine writes the oldest completion of the list (R9). -/
def Rqi.served (x : Rqi) (now : Word) : Rqi :=
  match x.engine, x.completions with
  | .idle, c :: rest => { x with engine := .writing c now, completions := rest }
  | _, _ => x

/-- Completions that owners hand over at one instant join the tail of the completion list, each owner's in its order
and the owners in either order (R12), one owner's next to each other (log 10); an idle engine then writes the oldest
(R9). -/
def HandedOver (x : Rqi) (now : Word) (owners : List (List Completion)) (y : Rqi) : Prop :=
  if owners.flatten = [] then y = x
  else ∃ order : List (List Completion), order.Perm owners ∧ y = Rqi.served { x with completions := x.completions ++ order.flatten } now

/-- A request parks: its cell is PARKED and the take ends (R11); the engine goes on to what waits (R9). -/
def State.parks (s : State) (r : RequestRecord) : State :=
  { s with cells := s.cells.set r.cell .parked, rqi := Rqi.served { s.rqi with engine := .idle } s.time }

/-- One completion of a parked request. -/
def handing (r : Option Parked) (status : Status) (results : List Word) : List Completion :=
  r.toList.map fun x => { cell := x.cell, tag := x.tag, status := status, item := none, results := results }

/-! Messages (R19, 2.1). -/

/-- How long a message takes to send: 3, 4, 5 or 7 bytes of 50 TU. -/
def TxMessage.sendTU : TxMessage → Nat
  | .probe => 150
  | .select _ => 200
  | .frame _ _ => 250
  | .hold _ => 350

/-- A link after a message has been handed to it: sent at once, or waiting (R19). -/
def LinkCtl.plus (lc : LinkCtl) (now : Word) (m : TxMessage) (supervised : Bool) : LinkCtl :=
  match lc.sending with
  | none => { lc with sending := some { message := m, supervised := supervised, endsAt := tuAfter now m.sendTU } }
  | some _ => { lc with waiting := lc.waiting ++ [{ message := m, supervised := supervised }] }

/-! The lock (R107 to R114). -/

/-- The phase history is dropped (R108). -/
def LockCtl.cleared (l : LockCtl) (state : LockState) : LockCtl :=
  { state := state, sourcePulse := none, silenceStart := none, measured := false, phaseError := 0, trim := 0,
    within := 0, beyond := 0, lastFrameStart := l.lastFrameStart }

/-- The lock after a measurement at `now` (R111, R112), with the fault it sets. -/
def LockCtl.measuredAt (l : LockCtl) (now : Word) (c : Contract) : LockCtl × List PipeFault :=
  let e := l.errorAt now c
  let l := { l with phaseError := e, measured := true }
  match l.state with
  | .seeking =>
    if 16 < e.natAbs then ({ l with within := 0 }, [])
    else if l.within = 3 then ({ l with state := .locked, within := 0, beyond := 0 }, [])
    else ({ l with within := l.within + 1 }, [])
  | .locked =>
    if e.natAbs ≤ 64 then ({ l with beyond := 0 }, [])
    else if l.beyond = 1 then ({ l with state := .seeking, within := 0, beyond := 0 }, [.lockLost])
    else ({ l with beyond := l.beyond + 1 }, [])
  | .notLocking => (l, [])
  | .aligning => (l, [])
  | .holdover => (l, [])

/-- The lock after a frame start that no rule but R111 treats. -/
def LockCtl.onward (l : LockCtl) (now : Word) (c : Contract) : LockCtl × List PipeFault :=
  if l.state = .seeking ∨ l.state = .locked then l.measuredAt now c else ({ l with measured := false }, [])

/-- The lock after a frame start at which a contract replaces another (R110); `recent` is the new source's last pulse,
if it fell within the last 2·F. -/
def LockCtl.replaced (l : LockCtl) (now : Word) (old c : Contract) (recent : Option Word) : LockCtl × List PipeFault :=
  if c.cadence = .free ∨ c.cadence = .relaxed then (l.cleared .notLocking, [])
  else if c.cadence = old.cadence ∧ c.offset = old.offset then l.onward now c
  else
    match recent with
    | some t =>
      { l with state := .seeking, sourcePulse := some t, silenceStart := some now, within := 0,
               beyond := 0 }.measuredAt now c
    | none =>
      ({ l with state := .holdover, sourcePulse := none, silenceStart := none, measured := false, within := 0,
                beyond := 0 }, [.refLost])

/-- The lock after a frame start (R107, R109 to R111). -/
def LockCtl.started (l : LockCtl) (how : StartKind) (now : Word) (c replaced : Option Contract)
    (recent : Contract → Option Word) : LockCtl × List PipeFault :=
  let l := { l with lastFrameStart := some now }
  match how with
  | .entry => ({ l with measured := false }, [])
  | .aligned => ({ l with state := .seeking, silenceStart := some now, measured := false }, [])
  | .deadline => ({ l with state := .holdover, measured := false, within := 0, beyond := 0 }, [.refLost])
  | .next =>
    match c, replaced with
    | some c, some old => l.replaced now old c (recent c)
    | some c, none => l.onward now c
    | none, _ => (l, [])

/-- A pulse of its source reaches a pipe (R83, R107, R114): the lock records it, HOLDOVER ends, and a runner that waits
in ALIGNING sets its aligned start. -/
def PipeState.pulsed (x : PipeState) (now : Word) : PipeState :=
  let l := x.lock
  let c := x.pb.contract
  { x with
    lock := if l.state = .holdover then
        { l with state := .seeking, sourcePulse := some now, silenceStart := some now, within := 0, beyond := 0 }
      else { l with sourcePulse := some now, silenceStart := some now },
    fr := if x.fr.state = .aligning ∧ x.fr.alignedStart = none ∧ c.isSome = true then
        { x.fr with alignedStart := some (tuAfter now ((c.map (·.offset)).getD 0)), alignDeadline := none }
      else x.fr }

/-- Whether a pulse of its source starts frame 1 of a pipe at once: first pulse in ALIGNING, offset 0 (R83). -/
def PipeState.startsOnPulse (x : PipeState) : Bool :=
  decide (x.fr.state = .aligning ∧ x.fr.alignedStart = none ∧ x.pb.contract.map (·.offset) = some 0)

/-! A frame start (R85 to R87). -/

/-- The contract that goes into force at a frame start: a selected one, at the end of a frame (R51). -/
def PipeState.installs (x : PipeState) (how : StartKind) : Option Contract :=
  if how = .next ∧ x.pb.phase = .selected then x.pb.selected else none

/-- The contract in force from a frame start on. -/
def PipeState.inForce (x : PipeState) (how : StartKind) : Option Contract :=
  match x.installs how with
  | some c => some c
  | none => x.pb.contract

/-- Whether a NEGOTIATE completes at a frame start, if one is parked (R87). -/
def PipeState.settles (x : PipeState) (how : StartKind) : Bool :=
  (x.installs how).isSome || decide (x.pb.phase = .installed ∧ x.pb.contract.isSome = true)

/-- The marks of a frame start: the frame mark, then the release of BURST 1 (R85, R88, R89). -/
def startMarks (number : Word) (plan : Option Plan) : List Word :=
  frameMark number ::
    match plan.bind fun x => x.slots.head? with
    | some (.burst _ _ first count) => [releaseMark first count]
    | _ => []

/-- One pipe's blocks after a frame start of it. -/
def PipeState.begun (x : PipeState) (how : StartKind) (now : Word) (recent : Contract → Option Word) : PipeState :=
  let n := x.fr.frameNumber + 1
  let windows := (x.pb.nextPlan.map (·.w)).getD 0
  let lock := x.lock.started how now (x.inForce how) (if (x.installs how).isSome then x.pb.contract else none) recent
  { lc := { x.lc.stopTimer with outstanding := some (.frame (n.setWidth 8)) }.plus now
      (.frame (n.setWidth 8) (BitVec.ofNat 8 windows)) true,
    pb := { x.pb with
      nextPlan := none, contract := x.inForce how,
      selected := if (x.installs how).isSome then none else x.pb.selected,
      phase := if x.settles how then .none else x.pb.phase,
      negotiate := if x.settles how then none else x.pb.negotiate },
    fr := { state := .running, plan := x.pb.nextPlan, slot := 1, frameNumber := n, frameStart := now,
            lastLength := if how = .next then now - x.fr.frameStart else 0, pullIn := false, alignDeadline := none,
            alignedStart := none, frameNow := none,
            bands := x.fr.bands.map fun b => { b with serving := some (b.serving.getD n) },
            trimEnd := none, stretchLimit := none, lpo := x.fr.lpo ++ startMarks n x.pb.nextPlan },
    lock := lock.1, faults := x.faults.plus lock.2, version := x.version }

/-- The completions a frame start hands over: the NEGOTIATE it settles, and the parked FRAME_NOW (R87). -/
def PipeState.startHands (x : PipeState) (how : StartKind) : List (List Completion) :=
  [match x.inForce how with
    | some c =>
      if x.settles how then
        handing x.pb.negotiate (if c.reason = .offer then .done else .doneFallback)
          [c.number, BitVec.ofNat 32 (c.offerIndex + 256 * c.modeIndex + 65536 * c.flagsCode + 16777216 * c.reason.code)]
      else []
    | none => [],
   handing x.fr.frameNow .done [x.fr.frameNumber + 1]]

/-- Each pin assigned a pulse source goes high for 100 TU (R182). -/
def pinsPulsed (pins : Vector Pin 4) (src : PinSource) (now : Word) : Vector Pin 4 :=
  pins.map fun pin => if pin.source = src then { source := src, pulseEnd := some (tuAfter now 100) } else pin

/-- A frame start of one pipe, but for its being a peer pulse. -/
def State.begunAlone (s : State) (p : Pipe) (how : StartKind) : State :=
  { s.withPipe p ((s.pipe p).begun how s.time (s.recentPulse p)) with pins := pinsPulsed s.pins (.frameStart p) s.time }

/-- A frame start: a peer pulse for a pipe under LOCKED_PEER, which may start that pipe's frame 1 (R83, R86, R107). -/
def State.begun (s : State) (p : Pipe) (how : StartKind) : State :=
  let q := otherPipe p
  let u := s.begunAlone p how
  if (s.pipe q).follows .lockedPeer then
    let v := u.withPipe q ((s.pipe q).pulsed s.time)
    if (s.pipe q).startsOnPulse then v.begunAlone q .aligned else v
  else u

/-- The completions handed over at a frame start, owner by owner. -/
def State.begunHands (s : State) (p : Pipe) (how : StartKind) : List (List Completion) :=
  let q := otherPipe p
  (s.pipe p).startHands how ++
    if (s.pipe q).follows .lockedPeer ∧ (s.pipe q).startsOnPulse then (s.pipe q).startHands .aligned else []

/-- The command is a frame start of a pipe out of state `m`, a state that differs from `s` by what the event did first.
Handing over ends the event. -/
def BeginsFrame (c : Instr) (s m : State) (p : Pipe) (how : StartKind) (owners : List (List Completion)) : Prop :=
  ∃ q, HandedOver m.rqi m.time (owners ++ m.begunHands p how) q ∧ Becomes c s ({ m.begun p how with rqi := q }.noted s)

/-! Links (R21, R24, R25, R27, R33, R35 to R37). -/

/-- Entry to PROBING (R21). -/
def PipeState.probing (x : PipeState) (now : Word) : PipeState :=
  { x with lc := { x.lc.stopTimer with
    state := .probing, modes := [], malformedSeen := false, probeCount := 1, quietEnd := none }.plus now .probe true }

/-- Entry to SELECTING under a contract in force (R27, R108). -/
def PipeState.selecting (x : PipeState) (now : Word) (c : Contract) : PipeState :=
  { x with
    lc := { x.lc.stopTimer with
      state := .selecting, outstanding := some (.select (BitVec.ofNat 8 c.modeIndex)) }.plus now
        (.select (BitVec.ofNat 8 c.modeIndex)) true,
    lock := x.lock.cleared .notLocking }

/-- Admission: the selection's contract goes into force, and the link enters SELECTING (R25, R48). -/
def State.admitting (s : State) (p : Pipe) : State :=
  let x := s.pipe p
  let c := s.selection p
  s.withPipe p ({ x with pb := { x.pb with contract := some c, counter := c.number } }.selecting s.time c)

/-- One pipe's blocks after a link stop (R35, R37, R62, R97, R108, R131). -/
def PipeState.stopped (x : PipeState) : PipeState :=
  { x with
    lc := { x.lc.stopTimer with outstanding := none, parkedAdmit := none },
    pb := { x.pb with
      contract := none, selected := none, phase := .none, negotiate := none, nextPlan := none },
    fr := { x.fr with
      state := .stopped, plan := none, slot := 0, pullIn := false, alignDeadline := none, alignedStart := none,
      frameNow := none, bands := [], trimEnd := none, stretchLimit := none },
    lock := x.lock.cleared .notLocking }

/-- Every request parked for a pipe, ABORTED, owner by owner (R34, R35). -/
def PipeState.aborts (x : PipeState) : List (List Completion) :=
  [handing x.lc.parkedAdmit .aborted [], handing x.pb.negotiate .aborted [], handing x.fr.frameNow .aborted [],
   x.fr.bands.flatMap fun b => handing (some b.request) .aborted []]

/-- The bank after a surface's use of it ends (R145, R146): its waiting request withdrawn, its retune left without a
request, its scan aborted, so that the other surface's waiting request is granted and the bank retunes (R141, R137). -/
def Bank.without (b : Bank) (k : Surface) (now : Word) : Bank :=
  let b := { b with waiting := b.waiting.set k none }
  if b.mode = .retuning ∧ b.surface = k then { b with granted := none }
  else if b.mode = .scanning ∧ b.surface = k then
    let o := otherSurface k
    match b.waiting.get o with
    | none => { b with mode := .parked, granted := none }
    | some r =>
      { b with
        mode := .retuning, surface := o, granted := some r, retuneEnd := tuAfter now 1600,
        waiting := b.waiting.set o none, grants := b.grants.set o (b.grants.get o + 1),
        grantTime := b.grantTime.set o (some now), lastGranted := some o }
  else b

/-- The frame in assembly is abandoned (R163). -/
def SurfaceState.abandoned (x : SurfaceState) : SurfaceState :=
  { x with cursor := 0, asm := { firstRow := none, rows := [], used := 0, lost := 0, noisyRows := 0 } }

/-- A link stop of a pipe; of pipe 1, it ends the sensing of surface 0 (R35 to R37). -/
def State.linkStopped (s : State) (p : Pipe) : State :=
  match p with
  | .p0 => s.withPipe .p0 (s.pipe .p0).stopped
  | .p1 =>
    { (s.withPipe .p1 (s.pipe .p1).stopped).withSurf .s0 (s.surf .s0).abandoned with
      bank := s.bank.without .s0 s.time }

/-- Whether leaving a link state for OFF or RECOVERY is a link stop (R34, R35). -/
def LinkState.stops (x : LinkState) : Bool := decide (x = .selecting ∨ x = .active)

/-- A link leaves its state for OFF or RECOVERY: a link stop, or the end of its timer and of a parked ADMIT. -/
def State.leaving (s : State) (p : Pipe) : State :=
  if (s.pipe p).lc.state.stops then s.linkStopped p
  else s.withPipe p { s.pipe p with lc := { (s.pipe p).lc.stopTimer with parkedAdmit := none } }

/-- What is aborted as a link leaves its state for OFF or RECOVERY. -/
def PipeState.leaves (x : PipeState) : List (List Completion) :=
  if x.lc.state.stops then x.aborts else [handing x.lc.parkedAdmit .aborted []]

/-- Entry to RECOVERY (R33, R19, R27). -/
def State.recovering (s : State) (p : Pipe) (reason : StopReason) : State :=
  let u := s.leaving p
  let x := u.pipe p
  u.withPipe p
    { x with
      lc := { x.lc with
        state := .recovery, stopReason := reason, recoveryCount := min 255 (x.lc.recoveryCount + 1), waiting := [],
        quietEnd := some (tuAfter s.time 400000) },
      faults := x.faults.plus
        (if reason = .selectRefused ∨ reason = .selectTimeout then [.recovery, .selectFailed] else [.recovery]) }

/-- Entry to OFF (R24, R19). -/
def State.turningOff (s : State) (p : Pipe) (reason : StopReason) : State :=
  let u := s.leaving p
  let x := u.pipe p
  u.withPipe p { x with lc := { x.lc with state := .off, stopReason := reason, waiting := [], quietEnd := none } }

/-- The command takes a link to RECOVERY, out of a state `m` that differs from `s` by what the event did first. -/
def EntersRecovery (c : Instr) (s m : State) (p : Pipe) (reason : StopReason) : Prop :=
  ∃ q, HandedOver m.rqi m.time (m.pipe p).leaves q ∧
    Becomes c s ({ m.recovering p reason with rqi := q }.noted s)

/-- One pipe's blocks as its link enters ACTIVE, before frame 1 starts or the runner waits (R28, R60, R82, R108). -/
def PipeState.activated (x : PipeState) (now : Word) (c : Contract) (plan : Plan) : PipeState :=
  { x with
    lc := { x.lc.stopTimer with state := .active, outstanding := none, missedAcks := 0, parkedAdmit := none },
    pb := { x.pb with nextPlan := some plan },
    fr := if c.locked then
        { x.fr with state := .aligning, frameNumber := 0, lastLength := 0,
                    alignDeadline := some (tuAfter now (2 * c.f)), alignedStart := none }
      else { x.fr with frameNumber := 0, lastLength := 0 },
    lock := x.lock.cleared (if c.locked then .aligning else .notLocking) }

/-- Plan the next frame of a pipe: next plan and plan page (R59, R60, R75). -/
def State.planned (s : State) (p : Pipe) (plan : Plan) : State :=
  { s.withPipe p { s.pipe p with pb := { (s.pipe p).pb with nextPlan := some plan } } with
    mem := s.mem.writeBytes (planPageBase p) plan.bytes }

/-- A frame ends into SELECTING for a mode change (R52, R96, R129). -/
def PipeState.changingMode (x : PipeState) (now : Word) (c : Contract) : PipeState :=
  { x with
    pb := { x.pb with contract := some c, selected := none, phase := .installed },
    fr := { x.fr with
      state := .stopped, plan := none, slot := 0, pullIn := false, trimEnd := none, stretchLimit := none,
      bands := x.fr.bands.map fun b : Band => { b with wholeFrame := b.wholeFrame || b.serving.isNone } } }.selecting now c

/-- The command ends a frame of a pipe: a mode change proceeds, or the next frame starts (R94, R95). -/
def EndsFrame (c : Instr) (s m : State) (p : Pipe) : Prop :=
  match (m.pipe p).pb.selected, (m.pipe p).pb.modeChangeWaiting with
  | some x, true => Becomes c s ((m.withPipe p ((m.pipe p).changingMode m.time x)).noted s)
  | _, _ => BeginsFrame c s m p .next []

/-! Bursts and bands (R127, R128). -/

/-- Whether a band is satisfied by the completion of the burst of lines `first` to `first + count - 1` (R127). -/
def Band.carriedBy (b : Band) (frame : Word) (v first count : Nat) : Bool :=
  let line := if b.wholeFrame then v - 1 else b.lastLine
  decide (b.serving = some frame ∧ first ≤ line ∧ line < first + count)

/-- The completion of a satisfied band: its latency decides, and is the result with the serving frame (R128). -/
def Band.answeredAt (b : Band) (now : Word) : Completion :=
  let latency := now - b.intake
  { cell := b.request.cell, tag := b.request.tag,
    status := if latency.toNat ≤ b.deadline then .done else .doneLate, item := none,
    results := [latency, b.serving.getD 0] }

/-- A pipe's blocks after a burst completion. -/
def PipeState.burstEnded (x : PipeState) (now : Word) (first count : Nat) : PipeState :=
  let v := (x.fr.plan.map (·.v)).getD 0
  let hit := fun b : Band => b.carriedBy x.fr.frameNumber v first count
  { x with
    fr := { x.fr with bands := x.fr.bands.filter fun b => !hit b },
    faults := if x.fr.bands.any fun b => hit b && decide (b.deadline < (now - b.intake).toNat)
      then x.faults.plus [.lateBand] else x.faults }

/-- The bands a burst completion completes, in intake order. -/
def PipeState.burstHands (x : PipeState) (now : Word) (first count : Nat) : List Completion :=
  (x.fr.bands.filter fun b => b.carriedBy x.fr.frameNumber ((x.fr.plan.map (·.v)).getD 0) first count).map
    fun b => b.answeredAt now

/-! Slots (R78). -/

/-- The runner is in the slot at a position of its plan, of which this is the record. -/
def Runner.inSlot (r : Runner) (pl : Plan) (k : Nat) (x : Slot) : Prop :=
  r.state = .running ∧ r.plan = some pl ∧ r.slot = k + 1 ∧ pl.slots[k]? = some x

/-- The slot after the one the runner is in starts now (R78). -/
def Runner.reaches (r : Runner) (now : Word) (x y : Slot) : Prop :=
  ∃ pl k, r.inSlot pl k x ∧ pl.slots[k + 1]? = some y ∧ tuAfter r.frameStart y.start = now

/-- The current slot advances by one. -/
def PipeState.inNextSlot (x : PipeState) : PipeState := { x with fr := { x.fr with slot := x.fr.slot + 1 } }

/-! The bank (R134 to R144). -/

/-- The arbiter's count of a grant (R141). -/
def Bank.counted (b : Bank) (k : Surface) (now : Word) : Bank :=
  { b with grants := b.grants.set k (b.grants.get k + 1), grantTime := b.grantTime.set k (some now),
           lastGranted := some k }

/-- The bank scans `n` rows of a request from now on (R139). -/
def Bank.scanning (b : Bank) (r : BankRequest) (k : Surface) (now : Word) (n rowTime : Nat) : Bank :=
  { b with mode := .scanning, surface := k, granted := some r, scanStart := now, scanRows := n,
           scanEnd := tuAfter now (n * rowTime) }

/-- The bank retunes to a surface for a request (R137). -/
def Bank.retuning (b : Bank) (r : BankRequest) (k : Surface) (now : Word) : Bank :=
  { b with mode := .retuning, surface := k, granted := some r, retuneEnd := tuAfter now 1600 }

/-- A request of a surface is lost: lost count, WINDOW_LOST, and the frame in assembly's own count (R144, R159). -/
def State.losing (s : State) (k : Surface) : State :=
  let x := s.surf k
  { s.withSurf k { x with
      faults := { x.faults with windowLost := true },
      asm := { x.asm with lost := min 65535 (x.asm.lost + 1) } } with
    bank := { s.bank with lost := s.bank.lost.set k (s.bank.lost.get k + 1) } }

/-- A window request for surface 0, with the expiry the arbiter sets (R90, R134). -/
def State.windowAsked (s : State) (endTime : Word) (ordinal : Nat) (noisy : Bool) : BankRequest :=
  { expiry := endTime - BitVec.ofNat 32 s.surfaces.s0.geo.rowTime,
    particulars := .window endTime (s.pipes.p1.fr.frameNumber.setWidth 8) ordinal noisy }

/-- The row count of a scan of surface 0 that starts now in a window that ends at `endTime` (R139). -/
def State.windowRows (s : State) (endTime : Word) : Nat :=
  if (endTime - s.time).toNat < 2 ^ 31 then (endTime - s.time).toNat / s.surfaces.s0.geo.rowTime else 0

/-- What the freed bank does with one request that it grants (R137, R139, R141): scan its own surface, lose it for want
of a row, or retune to the other surface. -/
def State.granting (s : State) (r : BankRequest) : State :=
  let k := r.surface
  let b := s.bank.counted k s.time
  if s.bank.surface = k then
    if s.scanRowCount r = 0 then
      State.losing { s with bank := { b with mode := .parked, granted := none } } k
    else { s with bank := b.scanning r k s.time (s.scanRowCount r) (s.surf k).geo.rowTime }
  else { s with bank := b.retuning r k s.time }

/-- The waiting request that a freed bank grants (R141). -/
def Bank.chosen (b : Bank) : Option BankRequest :=
  match b.waiting.s0, b.waiting.s1 with
  | none, none => none
  | some x, none => some x
  | none, some y => some y
  | some x, some y =>
    match b.policy, b.lastGranted with
    | .inCellFirst, _ => some x
    | .padFirst, _ => some y
    | .equal, some .s0 => some y
    | .equal, _ => some x

/-- The PARKED bank grants the request it chooses, if one waits. -/
def State.grantsNext (s : State) : State :=
  match s.bank.chosen with
  | none => s
  | some r => State.granting { s with bank := { s.bank with waiting := s.bank.waiting.set r.surface none } } r

/-- The bank is freed (R141): a grant that finds no row frees it again, and the other request is then granted. -/
def State.freed (s : State) : State :=
  let u := s.grantsNext
  if u.bank.mode = .parked then u.grantsNext else u

/-- A request arrives at the arbiter (R136). -/
def State.arriving (s : State) (r : BankRequest) : State :=
  let k := r.surface
  let past := decide (k = .s0 ∧ 2 ^ 31 ≤ (r.expiry - s.time).toNat)
  match s.bank.mode with
  | .parked =>
    if past ∧ s.bank.surface ≠ .s0 then s.losing k
    else
      let u := s.granting r
      if u.bank.mode = .parked then u.freed else u
  | _ =>
    if past then s.losing k
    else
      let u := if (s.bank.waiting.get k).isSome then s.losing k else s
      { u with bank := { u.bank with waiting := u.bank.waiting.set k (some r) } }

/-- A pad tick (R154): the count rises, the pad request arrives, and the next tick is set. -/
def State.ticking (s : State) : State :=
  let n := s.pct.tickCount + 1
  let r : BankRequest :=
    { expiry := tuAfter s.time s.surfaces.s1.geo.slack, particulars := .pad n }
  { s.arriving r with
    pct := { s.pct with tickCount := n, nextTick := some (tuAfter s.time s.surfaces.s1.geo.padInterval) } }

/-! Touch frames and reports (R156 to R161, R168). -/

/-- A write of the head frame of a surface into the free block `b` starts (R168, R169). -/
def State.writeBegun (s : State) (k : Surface) (f : TouchFrame) (rest : List TouchFrame) (b : Fin 16)
    (free : List (Fin 16)) : State :=
  { s.withSurf k { s.surf k with held := rest, skip := 0 } with
    rpw := { s.rpw with
      blocks := s.rpw.blocks.set b .writing, freeList := free,
      writer := some { block := b, frame := f, skippedBefore := (s.surf k).skip, startedAt := s.time,
                       endsAt := tuAfter s.time (1000 + 8 * f.rows + 2 * (f.rows * f.cols)) } } }

/-- The older of two head frames: the greater age, and of equal ages the one that joined first (R168). -/
def olderHead (now : Word) (a b : TouchFrame) : Surface :=
  let ageA := (now - a.completed).toNat
  let ageB := (now - b.completed).toNat
  if ageB < ageA ∨ ageA = ageB ∧ a.joined ≤ b.joined then .s0 else .s1

/-- The Report Writer starts a write if it is IDLE, a block is FREE and a frame is held (R168). -/
def State.writerChecks (s : State) : State :=
  match s.rpw.writer, s.rpw.freeList, (s.surf .s0).held, (s.surf .s1).held with
  | some _, _, _, _ => s
  | none, [], _, _ => s
  | none, _ :: _, [], [] => s
  | none, b :: free, f :: rest, [] => s.writeBegun .s0 f rest b free
  | none, b :: free, [], f :: rest => s.writeBegun .s1 f rest b free
  | none, b :: free, f :: rest, g :: rest' =>
    match olderHead s.time f g with
    | .s0 => s.writeBegun .s0 f rest b free
    | .s1 => s.writeBegun .s1 g rest' b free

/-- A completed touch frame joins its held list; a full list discards its head first, counted and a fault (R161). -/
def State.joining (s : State) (k : Surface) (f : TouchFrame) : State :=
  let x := s.surf k
  let x := if 2 ≤ x.held.length then
      { x with held := x.held.tail, skip := min 65535 (x.skip + 1), faults := { x.faults with frameSkipped := true } }
    else x
  { s.withSurf k { x with held := x.held ++ [{ f with joined := s.joinCounter }] } with
    joinCounter := s.joinCounter + 1 }

/-! The items of a request's values step, in order (R10, R39, R68, R102, R124, R142, R150, R152, R180). -/

/-- Whether a number lies in a range. -/
def within (n lo hi : Nat) : Bool := decide (lo ≤ n ∧ n ≤ hi)

/-- Where the fields of offer record `k` begin (12.2). -/
def offerField (k : Nat) : Nat := 0x24 + 20 * (k - 1)

/-- Offer `k` as the record holds it (12.2, R39). -/
def RequestRecord.offerRead (r : RequestRecord) (k : Nat) : Offer :=
  let a := offerField k
  { f := r.u32 a, lw := r.u32 (a + 4), fr := r.u32 (a + 8), offset := r.u32 (a + 12), trimMax := r.u16 (a + 16),
    w := r.u8 (a + 18),
    cadence := if r.u8 (a + 19) = 1 then .free else if r.u8 (a + 19) = 2 then .lockedRef
      else if r.u8 (a + 19) = 3 then .lockedPeer else .relaxed }

/-- Whether item `k` of a SET_OFFERS passes (3.2, R39). -/
def RequestRecord.offerOk (r : RequestRecord) (k : Nat) : Bool :=
  let o := r.offerRead k
  let code := r.u8 (offerField k + 19)
  within o.f 200000 4000000 && within o.w 0 16 && (decide (o.lw = 0) || within o.lw 2000 80000) && within code 1 4 &&
    (!decide (code = 4) || within o.fr o.f 4000000) &&
    (!(decide (code = 2) || decide (code = 3)) || (decide (o.offset < o.f) && within o.trimMax 8 2048))

/-- Items 0 to count of a SET_OFFERS (R39). -/
def RequestRecord.offerItems (r : RequestRecord) : List Bool :=
  (within (r.u8 0x20) 1 7 && within (r.u8 0x21) 0 1) :: (List.range (r.u8 0x20)).map fun i => r.offerOk (i + 1)

/-- Span `k` as the record holds it (12.2). -/
def RequestRecord.spanRead (r : RequestRecord) (k : Nat) : Span :=
  { start := r.u32 (0x24 + 8 * (k - 1)), stop := r.u32 (0x28 + 8 * (k - 1)) }

/-- Items 0 to count of a SET_QUIET (R68). -/
def RequestRecord.quietItems (r : RequestRecord) : List Bool :=
  (within (r.u8 0x20) 0 8 && within (r.u8 0x21) 0 63) ::
    (List.range (r.u8 0x20)).map fun i =>
      decide ((r.spanRead (i + 1)).start < (r.spanRead (i + 1)).stop ∧ (r.spanRead (i + 1)).stop ≤ 4000000)

/-- Items 1 to 3 of an URGENT_BAND, with V of the contract in force or 2160 without one (R124). -/
def RequestRecord.bandItems (r : RequestRecord) (v : Nat) : List Bool :=
  [decide (r.u16 0x20 ≤ r.u16 0x22), decide (r.u16 0x22 < v), within (r.u32 0x24) 1000 8000000]

/-- Items 1 and 2 of a SET_REFERENCE (R102). -/
def RequestRecord.referenceItems (r : RequestRecord) : List Bool :=
  [within (r.u8 0x20) 1 2, within (r.u32 0x24) 200000 4000000]

/-- The geometry a SET_SURFACE of a surface holds (R150); surface 0 has no pad fields. -/
def RequestRecord.geometryRead (r : RequestRecord) (k : Surface) : Geometry :=
  { rows := r.u8 0x20, cols := r.u8 0x21, rowTime := r.u32 0x24,
    padInterval := if k = .s1 then r.u32 0x28 else 0, padWindow := if k = .s1 then r.u32 0x2C else 0,
    slack := if k = .s1 then r.u32 0x30 else 0 }

/-- Items 1 to 4 of a SET_SURFACE of surface 0, 1 to 7 of surface 1 (R150). -/
def RequestRecord.surfaceItems (r : RequestRecord) (k : Surface) : List Bool :=
  let g := r.geometryRead k
  match k with
  | .s0 => [within g.rows 4 64, within g.cols 4 48, within (g.rows * g.cols) 0 1024, within g.rowTime 200 20000]
  | .s1 =>
    [within g.rows 2 16, within g.cols 2 16, within (g.rows * g.cols) 0 1024, within g.rowTime 200 20000,
     within g.padInterval 20000 2000000, within g.padWindow g.rowTime (g.padInterval - 1601),
     within g.slack 0 (g.padInterval - 1)]

/-- Whether entry `k` of a SET_EVENT_PINS passes (R180): a known source, with selector 0 or 1 where it takes one. -/
def RequestRecord.pinOk (r : RequestRecord) (k : Nat) : Bool :=
  let code := r.u8 (0x20 + 2 * (k - 1))
  within code 0 7 &&
    (!(decide (code = 1) || decide (code = 3) || decide (code = 4)) || within (r.u8 (0x21 + 2 * (k - 1))) 0 1)

/-- The source entry `k` names (12.2). -/
def RequestRecord.pinRead (r : RequestRecord) (k : Nat) : PinSource :=
  let one := decide (r.u8 (0x21 + 2 * (k - 1)) = 1)
  match r.u8 (0x20 + 2 * (k - 1)) with
  | 1 => .frameStart (if one then .p1 else .p0)
  | 2 => .windowActive
  | 3 => .scanActive (if one then .s1 else .s0)
  | 4 => .locked (if one then .p1 else .p0)
  | 5 => .reference
  | 6 => .reportPending
  | 7 => .faultAny
  | _ => .none

/-- Items 1 to 4 of a SET_EVENT_PINS. -/
def RequestRecord.pinItems (r : RequestRecord) : List Bool := [r.pinOk 1, r.pinOk 2, r.pinOk 3, r.pinOk 4]

/-- Item `i` (from 0) of a list is the first that fails. -/
def firstFailing (items : List Bool) (i : Nat) : Prop := items[i]? = some false ∧ ∀ j < i, items[j]? = some true

/-- Every item passes. -/
def allPass (items : List Bool) : Prop := ∀ x ∈ items, x = true

/-- The target byte names a pipe (1.7). -/
def RequestRecord.targetsPipe (r : RequestRecord) (p : Pipe) : Prop := r.u8 0x08 = pipeNumber p

/-- The target byte names a surface (1.7). -/
def RequestRecord.targetsSurface (r : RequestRecord) (k : Surface) : Prop := r.u8 0x08 = 0x10 + surfaceNumber k

/-- The lines an URGENT_BAND may name: V of the contract in force, 2160 without one (R124). -/
def PipeState.bandLimit (x : PipeState) : Nat :=
  match x.pb.contract with
  | some c => c.v
  | none => 2160

/-- A slot is a BURST that holds a line. -/
def Slot.holds (x : Slot) (line : Nat) : Prop :=
  match x with
  | .burst _ _ first count => first ≤ line ∧ line < first + count
  | _ => False

/-- The frame that runs still serves a line: the burst that holds it has not started (R125). -/
def Runner.stillServes (r : Runner) (line : Nat) : Prop :=
  r.state = .running ∧ ∃ pl k x, r.plan = some pl ∧ pl.slots[k]? = some x ∧ x.holds line ∧
    (∀ j < k, ∀ y, pl.slots[j]? = some y → ¬ y.holds line) ∧ r.slot ≤ k

/-- A scan of the surface in progress is aborted, and the bank freed (R145). -/
def State.scanAborted (s : State) (k : Surface) : State :=
  if s.bank.mode = .scanning ∧ s.bank.surface = k then
    State.freed { s with bank := { s.bank with mode := .parked, granted := none } }
  else s

/-! Contracts (R41 to R43). -/

/-- W′ of a pair (R41). -/
def pairWindows (p : Pipe) (o : Offer) (m : ModeRecord) : Nat := if p = .p1 then min o.w m.wmax.toNat else 0

/-- Lw′ of a pair (R41). -/
def pairLength (p : Pipe) (o : Offer) (m : ModeRecord) : Nat :=
  if 0 < pairWindows p o m then max o.lw m.lwMin.toNat else 0

/-- The lock condition (R43). -/
def State.lockHolds (s : State) (p : Pipe) (o : Offer) : Prop :=
  let q := s.pipe (otherPipe p)
  let runs := fun c : Contract => (c.cadence = .free ∨ c.cadence = .lockedRef) ∧ c.f = o.f
  (o.cadence = .lockedRef → o.f = s.ref.fref) ∧
  (o.cadence = .lockedPeer →
    q.lc.state = .active ∧ (∃ c, q.pb.contract = some c ∧ runs c) ∧ ∀ c, q.pb.selected = some c → runs c)

/-- Offer `o` fits mode `m` (R42): conditions 1 to 5. -/
def State.pairFits (s : State) (p : Pipe) (o : Offer) (m : ModeRecord) : Prop :=
  let windows := pairWindows p o m * pairLength p o m
  let lines := m.v.toNat + m.vb.toNat
  o.f ≤ m.fmax.toNat ∧ (o.cadence = .relaxed → o.fr ≤ m.fmax.toNat ∧ pairWindows p o m = 0) ∧ s.lockHolds p o ∧
    windows < o.f ∧ m.hmin.toNat ≤ (o.f - windows) / lines ∧ (o.f - windows) / lines ≤ 65535

/-- The number of the next contract of a pipe (R46). -/
def PlanBuilder.nextNumber (b : PlanBuilder) : Word := if b.counter.toNat + 1 = 2 ^ 32 then 1 else b.counter + 1

end Sys2Proof.Machine
end

