-- ==== Sys2Proof/Certificates/Slice0/Obligations.lean ====
section
/-! DEFINITION. The statements: what each command does, from the numbered rules of spec/, and what every step keeps. -/

open Sys2Proof Sys2Proof.Machine

/-! The step, resets and initialisation. -/

/-- One step takes the command at the front of the queue and runs it on the state with the queue's rest (the row's
convention; no rule of spec/). On an empty queue (logs 1 to 3, the model's choice) it runs an event that is due or
may come, or one TU passes, which counts in TIME; no time passes while an event is due. A TU changes nothing else, but
for what is being written: before READY the work of an initialisation (R4, log 6), a completion's words behind the code
word (R14, log 7), and the words of a report behind the claim word (R169, log 8). -/
def Obligations.StepRunsFrontCommand : Prop :=
  (∀ (c : Instr) (s : State) (rest : List Instr),
    step { s with pending := c :: rest } = exec c { s with pending := rest }) ∧
  ∀ s : State, s.pending = [] →
    ((∃ c ∈ s.due ++ s.possible, ∃ n, step s = exec c { s with free := n }) ∨
      s.due = [] ∧ ∃ t, step s = .next t ∧
        t = { s with time := s.time + 1, free := t.free, mem := t.mem, cells := t.cells, filledMarks := t.filledMarks,
                     rpw := t.rpw } ∧
        (s.ready = true → t.cells = s.cells ∧ t.filledMarks = s.filledMarks ∧ t.rpw = s.rpw ∧
          ∀ a, t.mem.read a ≠ s.mem.read a →
            (∃ c since, s.rqi.engine = .writing c since ∧ inRange a (cellBase c.cell + 4) 28) ∨
            ∃ j, s.rpw.writer = some j ∧ inRange a (blockBase j.block + 4) 2556)) ∧
    (s.due = [] → s.possible = [] → s.rpw.writer = none → step s = .next { s with time := s.time + 1 })

/-- The state after power-on reset is safe. -/
def Obligations.ResetStateIsSafe : Prop := State.reset.safe

/-- POWER_ON_RESET and SOFT_RESET (R3, R4, R6, R8, R173 to R175). Power-on reset takes every state to the reset state, but for
the queue of commands, the messages and marks already on the wires and the model's two counters. Soft reset, a CONTROL
write with bit 0 set, does the same but keeps Work Memory and the cells' states; with bit 0 clear the write has no
effect. What the spec does not say, and the model chooses: that soft reset leaves as FILLED, from its start on, exactly
the blocks whose claim word is non-zero (log 23; R8 keeps the marks, and R175 rebuilds them during initialisation); the
value of Work Memory at the start of power-on reset (log 6); that what has gone out on the wires and the model's two
counters stay (logs 19 and 21). -/
def Obligations.ResetsReturnTheBlocks : Prop :=
  ∀ s : State,
    let wires : PerPipe PipeState :=
      ⟨{ PipeState.reset with lc := { LinkCtl.reset with sent := s.pipes.p0.lc.sent },
                              fr := { Runner.reset with lpo := s.pipes.p0.fr.lpo } },
       { PipeState.reset with lc := { LinkCtl.reset with sent := s.pipes.p1.lc.sent },
                              fr := { Runner.reset with lpo := s.pipes.p1.fr.lpo } }⟩
    let fresh : State :=
      { State.reset with pending := s.pending, pipes := wires, joinCounter := s.joinCounter, free := s.free }
    exec .powerOnReset s = .next fresh ∧
    ∀ v : Word,
      (v.getLsbD 0 = false → exec (.softReset v) s = .next s) ∧
      (v.getLsbD 0 = true → ∃ t, exec (.softReset v) s = .next t ∧
        t = { fresh with mem := s.mem, cells := s.cells, filledMarks := t.filledMarks, rpw := t.rpw } ∧
        (∀ b : Fin 16,
          (s.mem.readWord (blockBase b) = 0 → t.rpw.blocks[b] = .free ∧ t.filledMarks[b] = false) ∧
          (s.mem.readWord (blockBase b) ≠ 0 → t.rpw.blocks[b] = .filled ∧ t.filledMarks[b] = true)) ∧
        t.rpw.freeList = (List.finRange 16).filter (fun b => decide (s.mem.readWord (blockBase b) = 0)) ∧
        t.rpw.writer = none ∧ t.rpw.nextSeq = ⟨1, 1⟩)

/-- INITIALISATION_COMPLETION (R4, R5, R15, R20, R21, R77, R104, R107, R175, R187). While READY is 0, in a safe state: READY
becomes 1; both links enter PROBING and send a PROBE; the first pulse is generated; PIPE alone is noticed; every part-owned
cell is ABANDONED with its tag and no other cell word is written; the blocks are as their claim words say; the plan
pages and the span 0x1580 to 0x17FF read 0; the status records show the new state; and nothing else changes. When READY
is 1 there is no such event (log 4). That the code of a PANEL_FAULT received before READY, and the version it has raised,
stand through the writing of the reset values is the model's choice (log 38). -/
def Obligations.InitialisationEndsReady : Prop :=
  ∀ s : State, s.pipesSafe →
    (s.ready = true → exec .initialisationCompletion s = .next s) ∧
    (s.ready = false → ∃ t, exec .initialisationCompletion s = .next t ∧
      t.bare =
        { s with
          ready := true, notice := { s.notice with pipe := true }, cells := Vector.replicate 16 .hostOwned,
          filledMarks := Vector.ofFn fun b => decide (s.mem.readWord (blockBase b) ≠ 0),
          rpw := { blocks := Vector.ofFn fun b => if s.mem.readWord (blockBase b) = 0 then .free else .filled,
                   freeList := (List.finRange 16).filter fun b => decide (s.mem.readWord (blockBase b) = 0),
                   writer := none, nextSeq := ⟨1, 1⟩ },
          pipes := ⟨(s.pipe .p0).probing s.time, (s.pipe .p1).probing s.time⟩,
          ref := { s.ref with genPhase := some (tuAfter s.time s.ref.fref), lastPulse := some s.time },
          pins := pinsPulsed s.pins .reference s.time : State }.bare ∧
      (∀ c : Fin 16, s.cells[c] ≠ .hostOwned →
        t.mem.readWord (cellBase c) = 0 ∧
        t.mem.readWord (cellBase c + 4) =
          ((s.mem.readWord (cellBase c)).extractLsb' 8 24 : BitVec 24) ++ (0x21 : Byte)) ∧
      (∀ a, (∀ c : Fin 16, s.cells[c] ≠ .hostOwned → ¬ inRange a (cellBase c) 8) →
        a < 0x1000 ∨ 0x2000 ≤ a → t.mem.read a = s.mem.read a) ∧
      (∀ a, 0x1580 ≤ a → a < 0x2000 → t.mem.read a = 0) ∧
      (∀ p, t.mem.readBytes (pipeRecordBase p) 512 = t.pipeRecord p) ∧
      (∀ k, t.mem.readBytes (surfaceRecordBase k) 128 = t.surfaceRecord k) ∧
      t.mem.readBytes bankRecordBase 64 = t.bank.bytes ∧ t.mem.readBytes refRecordBase 64 = t.ref.bytes)

/-! Host writes. -/

/-- NOTICE_WRITE and NOTICE_MASK_WRITE: a write to NOTICE clears each flag whose bit of the value is 1 (R16); a write
to NOTICE_MASK replaces the four enables (R17); neither reads another bit (R185) nor changes anything else. NOTICE_N is
low exactly while a flag is both set and enabled, in every state (R17); after either reset the mask is 0 and NOTICE_N
released (R4). -/
def Obligations.NoticeRegistersAndPin : Prop :=
  ∀ s : State,
    (∀ v : Word, exec (.noticeWrite v) s =
      .next { s with notice :=
        { cell := s.notice.cell && !v.getLsbD 0, report := s.notice.report && !v.getLsbD 1,
          pipe := s.notice.pipe && !v.getLsbD 2, fault := s.notice.fault && !v.getLsbD 3 } }) ∧
    (∀ v : Word, exec (.noticeMaskWrite v) s =
      .next { s with noticeMask :=
        { cell := v.getLsbD 0, report := v.getLsbD 1, pipe := v.getLsbD 2, fault := v.getLsbD 3 } }) ∧
    (s.noticeN = false ↔
      (s.notice.cell = true ∧ s.noticeMask.cell = true) ∨ (s.notice.report = true ∧ s.noticeMask.report = true) ∨
      (s.notice.pipe = true ∧ s.noticeMask.pipe = true) ∨ (s.notice.fault = true ∧ s.noticeMask.fault = true)) ∧
    (∀ c t, (c = .powerOnReset ∨ ∃ v, v.getLsbD 0 = true ∧ c = .softReset v) → exec c s = .next t →
      t.noticeMask = .none ∧ t.noticeN = true)

/-- Host reads, REGISTER_WRITE_DISCARDED, HOST_WORK_MEMORY_WRITE and transactions (R1 to R4, R6, R8, R185, 12.1). A read answers the
register's fields, the aligned Work Memory word, or 0 where nothing is. A write to IDENT, TIME or an address from 0x10014
on changes nothing. Of the writes to a Work Memory address that are neither a submission nor a claim return, one is stored,
as an aligned word, exactly when READY is 1 and the address lies in the host-free region or in a HOST_OWNED cell; any
other changes nothing, and no write changes anything but the stored word. A transaction of several words serves each at its
own aligned address, 4 on from the one before: reading answers the words, and writing queues for each word the command
of its address (that they queue as one command a word is log 33, as is what follows the word at 0xFFFFFC). -/
def Obligations.HostWritesByRegion : Prop :=
  (∀ (a : BitVec 24) (s : State),
    let w := a.toNat / 4 * 4
    let v := s.hostRead a
    let flags := fun n : Notices => v.toNat < 16 ∧ v.getLsbD 0 = n.cell ∧ v.getLsbD 1 = n.report ∧
      v.getLsbD 2 = n.pipe ∧ v.getLsbD 3 = n.fault
    (w < 0x10000 → v = s.mem.readWord w) ∧
    (w = 0x10000 → v.extractLsb' 0 16 = 0x0420#16 ∧ v.extractLsb' 16 8 = 0x01#8 ∧ v.extractLsb' 24 7 = 0x2C#7 ∧
      v.getLsbD 31 = s.ready) ∧
    (w = 0x10004 → flags s.notice) ∧ (w = 0x10008 → flags s.noticeMask) ∧ (w = 0x1000C → v = 0) ∧
    (w = 0x10010 → v = s.time) ∧ (0x10014 ≤ w → v = 0)) ∧
  (∀ (a : BitVec 24) (v : Word) (s : State),
    (0x10000 ≤ a.toNat ∧ a.toNat < 0x10004) ∨ 0x10010 ≤ a.toNat →
    exec (.registerWriteDiscarded a v) s = .next s) ∧
  (∀ (a : BitVec 16) (v : Word) (s : State),
    let w := a.toNat / 4 * 4
    let cell : Fin 16 := Fin.ofNat 16 (a.toNat / 256)
    let block : Prop := 0x2000 ≤ a.toNat ∧ a.toNat < 0xC000
    let stored : Prop :=
      s.ready = true ∧ (0xC000 ≤ a.toNat ∨ a.toNat < 0x1000 ∧ s.cells[cell] = .hostOwned)
    (a.toNat < 0x1000 → w % 256 = 0 → v = 0) → (block → (w - 0x2000) % 2560 = 0 → v ≠ 0) →
    ∃ t, exec (.hostWorkMemoryWrite a v) s = .next t ∧ t = { s with mem := t.mem } ∧
      (¬ stored → t = s) ∧
      (stored → t.mem.readWord w = v ∧ ∀ b, ¬ inRange b w 4 → t.mem.read b = s.mem.read b)) ∧
  ∀ (start : BitVec 24) (words : List Word) (s : State),
    let at_ := fun i : Nat => start.toNat / 4 * 4 + 4 * i
    (s.hostReads start words.length).length = words.length ∧
    (∀ i < words.length, at_ i < 2 ^ 24 →
      ∃ a : BitVec 24, a.toNat / 4 * 4 = at_ i ∧ (s.hostReads start words.length)[i]? = some (s.hostRead a)) ∧
    ∃ cs : List Instr, s.receiveTransaction start words = { s with pending := s.pending ++ cs } ∧
      cs.length = words.length ∧
      ∀ i v c, words[i]? = some v → cs[i]? = some c → at_ i < 2 ^ 24 →
        let w := at_ i
        let submits := w < 0x1000 ∧ w % 256 = 0 ∧ v ≠ 0
        let returns := 0x2000 ≤ w ∧ w < 0xC000 ∧ (w - 0x2000) % 2560 = 0 ∧ v = 0
        (submits → c = .cellCodeWordWrite (Fin.ofNat 16 (w / 256)) v) ∧
        (returns → c = .claimReturn (Fin.ofNat 16 ((w - 0x2000) / 2560))) ∧
        (w < 0x10000 → ¬ submits → ¬ returns →
          ∃ a : BitVec 16, a.toNat / 4 * 4 = w ∧ c = .hostWorkMemoryWrite a v) ∧
        (w = 0x10004 → c = .noticeWrite v) ∧ (w = 0x10008 → c = .noticeMaskWrite v) ∧
        (w = 0x1000C → c = .softReset v) ∧
        (w = 0x10000 ∨ 0x10010 ≤ w → ∃ a : BitVec 24, a.toNat / 4 * 4 = w ∧ c = .registerWriteDiscarded a v)

/-- CELL_CODE_WORD_WRITE (R6, R7). READY 1, the cell HOST_OWNED, a non-zero value: the word is stored, the cell becomes
QUEUED and its index joins the tail of the intake queue. A part-owned cell, or READY 0: nothing changes. -/
def Obligations.SubmittedCellsQueue : Prop :=
  ∀ (c : Fin 16) (v : Word) (s : State),
    (s.ready = true → s.cells[c] = .hostOwned → v ≠ 0 → ∃ t, exec (.cellCodeWordWrite c v) s = .next t ∧
      t = { s with mem := t.mem, cells := s.cells.set c .queued,
                   rqi := { s.rqi with intake := s.rqi.intake ++ [c] } } ∧
      t.mem.readWord (cellBase c) = v ∧ ∀ a, ¬ inRange a (cellBase c) 4 → t.mem.read a = s.mem.read a) ∧
    (s.ready = false ∨ s.cells[c] ≠ .hostOwned → exec (.cellCodeWordWrite c v) s = .next s)

/-- CLAIM_RETURN (R8, R166 to R169). READY 1 and the block's mark set: the claim word becomes 0, the mark is cleared, the
block is FREE at the tail of the free list, and the Report Writer checks for a write. Mark clear, or READY 0: nothing
changes. -/
def Obligations.ClaimReturnsFreeTheBlock : Prop :=
  ∀ (b : Fin 16) (s : State),
    (s.ready = true → s.filledMarks[b] = true →
      Becomes (.claimReturn b) s
        (State.writerChecks
          { s with mem := s.mem.writeWord (blockBase b) 0, filledMarks := s.filledMarks.set b false,
                   rpw := { s.rpw with blocks := s.rpw.blocks.set b .free,
                                       freeList := s.rpw.freeList ++ [b] } })) ∧
    (s.ready = false ∨ s.filledMarks[b] = false → exec (.claimReturn b) s = .next s)

/-! The Request Intake. -/

/-- REQUEST_TAKE (R9, R10). An idle engine with an empty completion list takes the head of the intake queue: the cell
becomes TAKEN and its 256 bytes are the request record. A kind from 1 to 13 goes on to its decision; any other completes
UNKNOWN_KIND, which the model decides within the take (log 15). While the engine works, a completion waits, or no cell
is queued, there is no take, and the command changes nothing (log 4, the model's choice). -/
def Obligations.TakesServeTheQueueHead : Prop :=
  ∀ s : State,
    (∀ c rest, s.rqi.engine = .idle → s.rqi.completions = [] → s.rqi.intake = c :: rest →
      let r : RequestRecord := { cell := c, image := s.mem.readBytes (cellBase c) 256 }
      let u : State := { s with cells := s.cells.set c .taken, rqi := { s.rqi with intake := rest } }
      (1 ≤ r.kind ∧ r.kind ≤ 13 →
        exec .requestTake s = .next { u with rqi := { u.rqi with engine := .taking r s.time } }) ∧
      (r.kind = 0 ∨ 14 ≤ r.kind → exec .requestTake s = .next (u.answer r .unknownKind none []))) ∧
    (s.rqi.engine ≠ .idle ∨ s.rqi.completions ≠ [] ∨ s.rqi.intake = [] → exec .requestTake s = .next s)

/-- COMPLETION_WRITE (R9, R13, 12.2). The completion being written ends: the item index at 0x0C if there is one, the result
words from 0x10 on, the status word at 0x04, and code word 0; the cell is HOST_OWNED, CELL is noticed, the engine goes on
to the oldest waiting completion, and nothing else changes, no other byte of Work Memory among it. -/
def Obligations.CompletionsReachTheCell : Prop :=
  ∀ (s : State) (c : Completion) (since : Word),
    s.rqi.engine = .writing c since → c.results.length ≤ 4 →
    ∃ t, exec .completionWrite s = .next t ∧
      t = { s with mem := t.mem, cells := s.cells.set c.cell .hostOwned, notice := { s.notice with cell := true },
                   rqi := Rqi.served { s.rqi with engine := .idle } s.time } ∧
      t.mem.readWord (cellBase c.cell) = 0 ∧
      t.mem.readWord (cellBase c.cell + 4) = c.tag ++ c.status.code ∧
      (∀ k, c.item = some k → t.mem.readWord (cellBase c.cell + 0x0C) = BitVec.ofNat 32 k) ∧
      (∀ i w, c.results[i]? = some w → t.mem.readWord (cellBase c.cell + 0x10 + 4 * i) = w) ∧
      ∀ a, ¬ inRange a (cellBase c.cell) 8 → ¬ (c.item.isSome = true ∧ inRange a (cellBase c.cell + 0x0C) 4) →
        ¬ inRange a (cellBase c.cell + 0x10) (4 * c.results.length) → t.mem.read a = s.mem.read a

/-! The decisions of the request kinds (R10, R11). -/

/-- The target and values steps (R10, R39, R68, R102, R124, R142, R150, R152, R180). A request whose target byte is no target of its
kind completes BAD_TARGET; SET_QUIET's one target is pipe 1. Else the first failing item completes it BAD_VALUE with that
item's index. Nothing else changes. -/
def Obligations.FirstFailingCheckRefusesTheRequest : Prop :=
  ∀ (s : State) (r : RequestRecord),
    (∀ (kind : Nat) (c : Instr), s.takes kind r →
      ((kind, c) ∈ [(0x01, .setOffers), (0x02, .negotiate), (0x03, .admitPipe), (0x04, .pipeRestart), (0x06, .urgentBand),
          (0x07, .frameNow)] ∧ r.u8 0x08 ≠ 0x00 ∧ r.u8 0x08 ≠ 0x01 ∨
        (kind, c) = (0x05, .setQuiet) ∧ r.u8 0x08 ≠ 0x01 ∨
        (kind, c) ∈ [(0x09, .setSurface), (0x0A, .surfaceEnable)] ∧ r.u8 0x08 ≠ 0x10 ∧ r.u8 0x08 ≠ 0x11 ∨
        (kind, c) = (0x0D, .clearFaults) ∧ r.u8 0x08 ∉ [0x00, 0x01, 0x10, 0x11]) →
      Becomes c s (s.answer r .badTarget none [])) ∧
    ∀ i : Nat,
      let rejects := fun (c : Instr) (item : Nat) => Becomes c s (s.answer r .badValue (some item) [])
      (∀ p, s.takes 0x01 r → r.targetsPipe p → firstFailing r.offerItems i → rejects .setOffers i) ∧
      (s.takes 0x05 r → r.targetsPipe .p1 → firstFailing r.quietItems i → rejects .setQuiet i) ∧
      (∀ p, s.takes 0x06 r → r.targetsPipe p → firstFailing (r.bandItems (s.pipe p).bandLimit) i →
        rejects .urgentBand (i + 1)) ∧
      (s.takes 0x08 r → firstFailing r.referenceItems i → rejects .setReference (i + 1)) ∧
      (∀ k, s.takes 0x09 r → r.targetsSurface k → firstFailing (r.surfaceItems k) i → rejects .setSurface (i + 1)) ∧
      (∀ k, s.takes 0x0A r → r.targetsSurface k → firstFailing [within (r.u8 0x20) 0 1] i →
        rejects .surfaceEnable (i + 1)) ∧
      (s.takes 0x0B r → firstFailing [within (r.u8 0x20) 1 3] i → rejects .setBank (i + 1)) ∧
      (s.takes 0x0C r → firstFailing r.pinItems i → rejects .setEventPins (i + 1))

/-- SET_OFFERS (R25, R39, R40). The offers, in the order given, and the auto-admit flag replace the pipe's; the request
completes DONE with the count; with auto-admit set in HELD, admission begins. -/
def Obligations.SetOffersStoresTheOffers : Prop :=
  ∀ (s : State) (r : RequestRecord) (p : Pipe),
    s.takes 0x01 r → r.targetsPipe p → allPass r.offerItems →
    let x := s.pipe p
    let u := (s.answer r .done none [BitVec.ofNat 32 (r.u8 0x20)]).withPipe p
      { x with pb := { x.pb with offers := (List.range (r.u8 0x20)).map fun i => r.offerRead (i + 1),
                                 autoAdmit := decide (r.u8 0x21 = 1) } }
    (r.u8 0x21 = 1 ∧ x.lc.state = .held → Becomes .setOffers s ((u.admitting p).noted s)) ∧
    (¬ (r.u8 0x21 = 1 ∧ x.lc.state = .held) → Becomes .setOffers s u)

/-- NEGOTIATE (R11, R49): STAGED on an ACTIVE pipe with none parked; BUSY with one parked; WRONG_STATE on any other link. -/
def Obligations.NegotiateStages : Prop :=
  ∀ (s : State) (r : RequestRecord) (p : Pipe),
    s.takes 0x02 r → r.targetsPipe p →
    let x := s.pipe p
    (x.lc.state = .active → x.pb.negotiate = none →
      Becomes .negotiate s ((s.parks r).withPipe p
        { x with pb := { x.pb with negotiate := some { cell := r.cell, tag := r.tag }, phase := .staged } })) ∧
    (x.lc.state = .active → x.pb.negotiate ≠ none → Becomes .negotiate s (s.answer r .busy none [])) ∧
    (x.lc.state ≠ .active → Becomes .negotiate s (s.answer r .wrongState none []))

/-- ADMIT (R11, R25, R26), by the link state: OFF refuses it, ACTIVE completes it DONE with the number and mode index of the
contract in force, and the other states park it, or answer BUSY with one parked; in HELD admission begins. That the parked
ADMIT alone rewrites no pipe record is the model's choice (log 37). -/
def Obligations.AdmitIsDecidedByTheLink : Prop :=
  ∀ (s : State) (r : RequestRecord) (p : Pipe),
    s.takes 0x03 r → r.targetsPipe p →
    let x := s.pipe p
    let u := (s.parks r).withPipe p
      { x with lc := { x.lc with parkedAdmit := some { cell := r.cell, tag := r.tag } } }
    (x.lc.state = .off → Becomes .admitPipe s (s.answer r .wrongState none [])) ∧
    (∀ c, x.lc.state = .active → x.pb.contract = some c →
      Becomes .admitPipe s (s.answer r .done none [c.number, BitVec.ofNat 32 (c.modeIndex % 256)])) ∧
    (x.lc.state ≠ .off → x.lc.state ≠ .active →
      (x.lc.parkedAdmit ≠ none → Becomes .admitPipe s (s.answer r .busy none [])) ∧
      (x.lc.parkedAdmit = none → x.lc.state = .held → Becomes .admitPipe s ((u.admitting p).noted s)) ∧
      (x.lc.parkedAdmit = none → x.lc.state ≠ .held → Becomes .admitPipe s u))

/-- PIPE_RESTART (R20, R21, R24, R34 to R36): in every link state the request completes DONE, the link passes through OFF
with HOST_RESTART into PROBING, every request parked for the pipe is ABORTED behind it, PIPE is noticed, and the
pipe record is rewritten once (the model's choice, log 5: R20 could count the two link changes one by one). That the
aborted completions of one owner join next to one another, and bands in intake order, is the model's choice too (log 10). -/
def Obligations.PipeRestartProbesAgain : Prop :=
  ∀ (s : State) (r : RequestRecord) (p : Pipe),
    s.bankSafe → s.takes 0x04 r → r.targetsPipe p →
    let u := (s.answer r .done none []).turningOff p .hostRestart
    let x := u.pipe p
    let v := u.withPipe p
      ({ x with pb := { x.pb with phase := .none, negotiate := none },
                fr := { x.fr with frameNow := none, bands := [] } }.probing s.time)
    ∃ q t, HandedOver u.rqi s.time (s.pipe p).aborts q ∧ exec .pipeRestart s = .next t ∧
      t.bare = { v with rqi := q, notice := { s.notice with pipe := true } : State }.bare ∧
      (t.pipe p).version = (s.pipe p).version + 1 ∧
      ∀ a, ¬ s.recordChanged t a → ¬ inRange a (pipeRecordBase p) 512 → t.mem.read a = s.mem.read a

/-- SET_QUIET (R69). The spans, sorted and merged, and ShiftMax replace those stored, whatever the link state; the
result is the number of spans stored. The stored form of any valid spans lies in rising order, no two overlapping or
touching, covers exactly the instants the given spans cover, and is no longer than they are. -/
def Obligations.SetQuietStoresMergedSpans : Prop :=
  (∀ (s : State) (r : RequestRecord), s.takes 0x05 r → r.targetsPipe .p1 → allPass r.quietItems →
    let spans := storedSpans ((List.range (r.u8 0x20)).map fun i => r.spanRead (i + 1))
    Becomes .setQuiet s
      { s.answer r .done none [BitVec.ofNat 32 spans.length] with quietSpans := spans, shiftMax := r.u8 0x21 }) ∧
  ∀ xs : List Span, (∀ x ∈ xs, x.start < x.stop) →
    (storedSpans xs).Pairwise (fun x y => x.stop < y.start) ∧ (∀ x ∈ storedSpans xs, x.start < x.stop) ∧
    (∀ n, (∃ x ∈ storedSpans xs, x.start ≤ n ∧ n < x.stop) ↔ ∃ x ∈ xs, x.start ≤ n ∧ n < x.stop) ∧
    (storedSpans xs).length ≤ xs.length

/-- URGENT_BAND (R11, R119, R120, R124, R125). On an ACTIVE pipe with fewer than four bands it parks, served by the frame
that runs if the burst that holds its first line has not started; without a serving frame it calls for a pull-in under
RELAXED: pull-in pending in RUNNING, the frame's end in STRETCH. Four bands: BUSY. Any other link: WRONG_STATE. What a
frame's end does to the lock rests on the model's choices of logs 12, 24 and 32. -/
def Obligations.UrgentBandParks : Prop :=
  ∀ (s : State) (r : RequestRecord) (p : Pipe) (serving : Option Word),
    s.takes 0x06 r → r.targetsPipe p → allPass (r.bandItems (s.pipe p).bandLimit) →
    let x := s.pipe p
    let relaxed := x.pb.contract.map (·.cadence) = some .relaxed
    let band : Band :=
      { request := { cell := r.cell, tag := r.tag }, firstLine := r.u16 0x20, lastLine := r.u16 0x22,
        deadline := r.u32 0x24, intake := s.time, serving := serving, wholeFrame := false }
    let parked := fun pullIn : Bool => (s.parks r).withPipe p
      { x with fr := { x.fr with bands := x.fr.bands ++ [band], pullIn := pullIn } }
    (x.lc.state ≠ .active → Becomes .urgentBand s (s.answer r .wrongState none [])) ∧
    (x.lc.state = .active → 4 ≤ x.fr.bands.length → Becomes .urgentBand s (s.answer r .busy none [])) ∧
    (x.lc.state = .active → x.fr.bands.length < 4 →
      (x.fr.stillServes (r.u16 0x20) → serving = some x.fr.frameNumber) →
      (¬ x.fr.stillServes (r.u16 0x20) → serving = none) →
      (relaxed → x.fr.state = .running → serving = none → Becomes .urgentBand s (parked true)) ∧
      (relaxed → x.fr.state = .stretch → s.peersApart → EndsFrame .urgentBand s (parked x.fr.pullIn) p) ∧
      (¬ (relaxed ∧ (x.fr.state = .running ∧ serving = none ∨ x.fr.state = .stretch)) →
        Becomes .urgentBand s (parked x.fr.pullIn)))

/-- FRAME_NOW (R11, R119 to R121). On an ACTIVE RELAXED pipe with none parked it parks: pull-in pending in RUNNING, and in
STRETCH the frame ends in the same event. With one parked: BUSY. Any other link or cadence: WRONG_STATE. What a frame's
end does to the lock rests on the model's choices of logs 12, 24 and 32. -/
def Obligations.FrameNowPullsIn : Prop :=
  ∀ (s : State) (r : RequestRecord) (p : Pipe),
    s.takes 0x07 r → r.targetsPipe p →
    let x := s.pipe p
    let ready := x.lc.state = .active ∧ x.pb.contract.map (·.cadence) = some .relaxed
    let parked := fun pullIn : Bool => (s.parks r).withPipe p
      { x with fr := { x.fr with frameNow := some { cell := r.cell, tag := r.tag }, pullIn := pullIn } }
    (¬ ready → Becomes .frameNow s (s.answer r .wrongState none [])) ∧
    (ready → x.fr.frameNow ≠ none → Becomes .frameNow s (s.answer r .busy none [])) ∧
    (ready → x.fr.frameNow = none →
      (x.fr.state = .running → Becomes .frameNow s (parked true)) ∧
      (x.fr.state = .stretch → s.peersApart → EndsFrame .frameNow s (parked x.fr.pullIn) p) ∧
      (x.fr.state ≠ .running → x.fr.state ≠ .stretch → Becomes .frameNow s (parked x.fr.pullIn)))

/-- SET_REFERENCE (R47, R102, R103): WRONG_STATE while a pipe holds a LOCKED_REF contract, in force or selected; else the
source and period change and the source starts afresh: no last pulse; INTERNAL is PRESENT with its first pulse one
period from now, EXTERNAL is ABSENT; the early-pulse count stays. -/
def Obligations.SetReferenceStartsTheSource : Prop :=
  ∀ (s : State) (r : RequestRecord), s.takes 0x08 r → allPass r.referenceItems →
    let holds := fun p : Pipe => (s.pipe p).pb.contract.map (·.cadence) = some .lockedRef ∨
      (s.pipe p).pb.selected.map (·.cadence) = some .lockedRef
    let u := s.answer r .done none []
    let fref := r.u32 0x24
    (holds .p0 ∨ holds .p1 → Becomes .setReference s (s.answer r .wrongState none [])) ∧
    (¬ holds .p0 → ¬ holds .p1 →
      (r.u8 0x20 = 1 → Becomes .setReference s
        { u with ref := { s.ref with source := .internal, fref := fref, lastPulse := none, present := true,
                                     genPhase := some (tuAfter s.time fref) } }) ∧
      (r.u8 0x20 = 2 → Becomes .setReference s
        { u with ref := { s.ref with source := .external, fref := fref, lastPulse := none, present := false,
                                     genPhase := none } }))

/-- SET_SURFACE (R145, R151, R155, R163): the geometry is replaced, a scan of the surface is aborted and the bank freed, the
frame in assembly is abandoned, and a running pad timer's next tick moves to one interval from now. -/
def Obligations.SetSurfaceReplacesTheGeometry : Prop :=
  ∀ (s : State) (r : RequestRecord) (k : Surface),
    s.bankSafe → s.takes 0x09 r → r.targetsSurface k → allPass (r.surfaceItems k) →
    let u := (s.answer r .done none []).withSurf k { s.surf k with geo := r.geometryRead k }
    let v := u.scanAborted k
    let w := v.withSurf k (v.surf k).abandoned
    let pct := if k = .s1 ∧ s.pct.running = true
      then { s.pct with nextTick := some (tuAfter s.time (r.u32 0x28)) } else s.pct
    Becomes .setSurface s ({ w with pct := pct }.noted s)

/-- SURFACE_ENABLE (R145, R152 to R155). A surface that is off turns on; of surface 1 the pad timer starts, and makes tick 1 at
once; that its request joins the waiting set of a bank at work even with slack 0, where R135 speaks of a loss, is log 13.
A surface that is on turns off: its use of the bank ends, its frame in assembly is abandoned, its pad timer stops. A byte
that names the present state changes nothing. -/
def Obligations.SurfaceEnableSwitchesTheSurface : Prop :=
  ∀ (s : State) (r : RequestRecord) (k : Surface),
    s.bankSafe → s.takes 0x0A r → r.targetsSurface k → allPass [within (r.u8 0x20) 0 1] →
    let u := s.answer r .done none []
    let x := s.surf k
    (x.enabled = decide (r.u8 0x20 = 1) → Becomes .surfaceEnable s u) ∧
    (x.enabled = false → r.u8 0x20 = 1 →
      let v := u.withSurf k { x with enabled := true }
      (k = .s0 → Becomes .surfaceEnable s v) ∧
      (k = .s1 → Becomes .surfaceEnable s
        ((State.ticking { v with pct := { s.pct with running := true, tickCount := 0 } }).noted s))) ∧
    (x.enabled = true → r.u8 0x20 = 0 →
      let v := { u.withSurf k { x.abandoned with enabled := false } with bank := s.bank.without k s.time }
      (k = .s0 → Becomes .surfaceEnable s v) ∧
      (k = .s1 → Becomes .surfaceEnable s { v with pct := { s.pct with running := false, nextTick := none } }))

/-- SET_BANK, SET_EVENT_PINS and CLEAR_FAULTS (R142, R178, R180, R181, 12.3). The policy is replaced, and nothing else of the bank.
Each pin whose entry equals its assignment is left with its pulse, and any other takes its entry and loses its pulse. A
CLEAR_FAULTS answers with its target's fault set as it stood, bit by bit, and clears that set alone; NOTICE stays. -/
def Obligations.SettingsAndFaultSetsChangeAlone : Prop :=
  ∀ (s : State) (r : RequestRecord),
    let u := s.answer r .done none []
    (∀ policy, s.takes 0x0B r →
      (r.u8 0x20, policy) ∈ [(1, Policy.equal), (2, Policy.inCellFirst), (3, Policy.padFirst)] →
      Becomes .setBank s { u with bank := { s.bank with policy := policy } }) ∧
    (s.takes 0x0C r → allPass r.pinItems →
      Becomes .setEventPins s
        { u with pins := Vector.ofFn fun k : Fin 4 =>
            if s.pins[k].source = r.pinRead (k.val + 1) then s.pins[k]
            else { source := r.pinRead (k.val + 1), pulseEnd := none } }) ∧
    (s.takes 0x0D r → ∀ p, r.targetsPipe p →
      let x := s.pipe p
      ∃ w : Word, Becomes .clearFaults s ((s.answer r .done none [w]).withPipe p { x with faults := .none }) ∧
        w.toNat < 64 ∧ w.getLsbD 0 = x.faults.ackMissed ∧ w.getLsbD 1 = x.faults.recovery ∧
        w.getLsbD 2 = x.faults.selectFailed ∧ w.getLsbD 3 = x.faults.lockLost ∧ w.getLsbD 4 = x.faults.refLost ∧
        w.getLsbD 5 = x.faults.lateBand) ∧
    (s.takes 0x0D r → ∀ k, r.targetsSurface k →
      let x := s.surf k
      ∃ w : Word, Becomes .clearFaults s ((s.answer r .done none [w]).withSurf k { x with faults := .none }) ∧
        w.toNat < 8 ∧ w.getLsbD 0 = x.faults.windowLost ∧ w.getLsbD 1 = x.faults.frameSkipped ∧
        w.getLsbD 2 = x.faults.noisyWindow)

/-! Links. -/

/-- MESSAGE_REJECTED (R18, R188, 12.6). The bytes that pass the checks are those of a LIST of at most 18 records, an ACK, a NAK or
a PANEL_FAULT, each type byte with the length byte of its payload, and the CRC over the bytes before it; they are that
message (log 18). All other bytes, those with another type, another length or another CRC among them, change nothing. -/
def Obligations.ReceivedBytesAreChecked : Prop :=
  ∀ (s : State) (p : Pipe),
    let spells := fun (c : Instr) (body : List Byte) =>
      (∃ modes : List ModeRecord, modes.length ≤ 18 ∧ c = .list p modes ∧
        body = [0x61, BitVec.ofNat 8 (1 + 14 * modes.length), BitVec.ofNat 8 modes.length] ++
          modes.flatMap fun m => (modeBytes m).take 14) ∨
      (∃ t v, c = .ack p t v ∧ body = [0x62, 2, t, v]) ∨ (c = .nak p ∧ body = [0x63, 0]) ∨
      ∃ code, c = .panelFault p code ∧ body = [0x64, 1, code]
    (∀ bytes, rxOfBytes bytes = none ↔ ¬ ∃ c body, spells c body ∧ bytes = body ++ [crc8 body]) ∧
    (∀ bytes, rxOfBytes bytes = none → exec (.messageRejected p bytes) s = .next s) ∧
    ∀ (body : List Byte) (crc : Byte) (c : Instr), spells c body →
      exec (.messageRejected p (body ++ [crc])) s = if crc = crc8 body then exec c s else .next s

/-- LIST (R22, R25, R48, R188). A valid LIST in PROBING becomes the mode list, stops the timer and takes the link to HELD, and admission
begins at once with an ADMIT parked or auto-admit set; a malformed one of at most 18 records sets malformed seen. In any other
state a LIST changes nothing, nor does one of 19 or more records, which no length byte agrees with. -/
def Obligations.ListEndsProbing : Prop :=
  ∀ (s : State) (p : Pipe) (modes : List ModeRecord),
    let x := s.pipe p
    let valid := 1 ≤ modes.length ∧ modes.length ≤ 7 ∧ ∀ m ∈ modes,
      240 ≤ m.v.toNat ∧ m.v.toNat ≤ 2160 ∧ 4 ≤ m.vb.toNat ∧ m.wmax.toNat ≤ 16 ∧ 100 ≤ m.hmin.toNat ∧
      m.hmin.toNat ≤ 4000 ∧ 2000 ≤ m.lwMin.toNat ∧ m.lwMin.toNat ≤ 80000 ∧ 200000 ≤ m.fmax.toNat ∧
      m.fmax.toNat ≤ 4000000
    let u := s.withPipe p { x with lc := { x.lc.stopTimer with state := .held, modes := modes } }
    let admits := x.lc.parkedAdmit ≠ none ∨ x.pb.autoAdmit = true
    (x.lc.state = .probing → valid → ¬ admits → Becomes (.list p modes) s (u.noted s)) ∧
    (x.lc.state = .probing → valid → admits → Becomes (.list p modes) s ((u.admitting p).noted s)) ∧
    (x.lc.state = .probing → modes.length ≤ 18 → ¬ valid →
      Becomes (.list p modes) s (s.withPipe p { x with lc := { x.lc with malformedSeen := true } })) ∧
    (x.lc.state ≠ .probing ∨ 19 ≤ modes.length → exec (.list p modes) s = .next s)

/-- ACK of the SELECT (R26, R28, R60, R82, R85, R108). The link enters ACTIVE, a parked ADMIT completes DONE, and the plan of frame 1
is built and published; under a locked contract the runner waits in ALIGNING for 2·F, under any other frame 1 starts in
the same event. The frame number is 0 from the entry on by R82, where R96 has an ended frame's number stay in the pipe
record until frame 1 starts (log 36). -/
def Obligations.AckOfSelectEntersActive : Prop :=
  ∀ (s : State) (p : Pipe) (mode : Byte) (c : Contract),
    let x := s.pipe p
    x.lc.state = .selecting → x.lc.outstanding = some (.select mode) → x.pb.contract = some c → s.peersApart →
    let plan := buildPlan 1 c (s.quietOf p).1 (s.quietOf p).2
    let y := x.activated s.time c plan
    let u := { s.withPipe p y with mem := s.mem.writeBytes (planPageBase p) plan.bytes }
    let admitted := handing x.lc.parkedAdmit .done [c.number, BitVec.ofNat 32 (c.modeIndex % 256)]
    (c.cadence = .lockedRef ∨ c.cadence = .lockedPeer →
      ∃ q, HandedOver s.rqi s.time [admitted] q ∧ Becomes (.ack p 0xA2 mode) s ({ u with rqi := q }.noted s)) ∧
    (c.cadence = .free ∨ c.cadence = .relaxed → BeginsFrame (.ack p 0xA2 mode) s u p .entry [admitted])

/-- ACK of the FRAME (R29), and answers that match nothing (R24, R25, R27, R29, R33). The ACK that echoes the outstanding FRAME
clears it and the missed-ack count. Any other ACK, and a NAK in OFF, PROBING, HELD or RECOVERY or with no FRAME
outstanding in ACTIVE, changes nothing. -/
def Obligations.AnswersMatchTheOutstandingMessage : Prop :=
  ∀ (s : State) (p : Pipe) (t v : Byte),
    let x := s.pipe p
    (∀ n, x.lc.state = .active → x.lc.outstanding = some (.frame n) → t = 0xA3 → v = n →
      Becomes (.ack p t v) s
        (s.withPipe p { x with lc := { x.lc.stopTimer with outstanding := none, missedAcks := 0 } })) ∧
    (¬ (x.lc.state = .active ∧ t = 0xA3 ∧ x.lc.outstanding = some (.frame v)) →
      ¬ (x.lc.state = .selecting ∧ t = 0xA2 ∧ x.lc.outstanding = some (.select v)) →
      exec (.ack p t v) s = .next s) ∧
    (x.lc.state ≠ .selecting → ¬ (x.lc.state = .active ∧ ∃ n, x.lc.outstanding = some (.frame n)) →
      exec (.nak p) s = .next s)

/-- NAK and SELECT_TIMEOUT in SELECTING (R27, R33, R35): RECOVERY with SELECT_REFUSED or SELECT_TIMEOUT. A SELECT_TIMEOUT whose
timer does not expire now is no event (log 4). That the aborted completions of one owner join next to one another, and
bands in intake order, is the model's choice (log 10). -/
def Obligations.SelectRefusedEntersRecovery : Prop :=
  ∀ (s : State) (p : Pipe), s.bankSafe →
    let lc := (s.pipe p).lc
    (lc.state = .selecting → EntersRecovery (.nak p) s s p .selectRefused) ∧
    (lc.state = .selecting → lc.answerDeadline = some s.time →
      EntersRecovery (.selectTimeout p) s s p .selectTimeout) ∧
    (lc.state ≠ .selecting ∨ lc.answerDeadline ≠ some s.time → exec (.selectTimeout p) s = .next s)

/-- NAK and FRAME_ACK_TIMEOUT in ACTIVE (R29, R30): a miss clears the outstanding FRAME, is counted and sets ACK_MISSED; the miss
that raises the count to 3 takes the link to RECOVERY with ACK_MISSED. That the aborted completions of one owner join next
to one another, and bands in intake order, is the model's choice (log 10). -/
def Obligations.ThirdMissEntersRecovery : Prop :=
  ∀ (s : State) (p : Pipe) (c : Instr), s.bankSafe →
    let x := s.pipe p
    x.lc.state = .active →
    (c = .nak p ∧ (∃ n, x.lc.outstanding = some (.frame n)) ∨
      c = .frameAckTimeout p ∧ x.lc.answerDeadline = some s.time) →
    let u := s.withPipe p
      { x with lc := { x.lc.stopTimer with outstanding := none, missedAcks := x.lc.missedAcks + 1 },
               faults := x.faults.plus [.ackMissed] }
    (x.lc.missedAcks < 2 → Becomes c s (u.noted s)) ∧
    (2 ≤ x.lc.missedAcks → EntersRecovery c s u p .ackMissed)

/-- PANEL_FAULT (R21, R24, R25, R27, R31, R33): the code is stored in every state; in HELD, SELECTING and ACTIVE the link enters
RECOVERY with PANEL_FAULT. That the aborted completions of one owner join next to one another, and bands in intake order,
is the model's choice (log 10), and so is that a code stored before READY rewrites the pipe record at once (log 38). -/
def Obligations.PanelFaultStopsTheLink : Prop :=
  ∀ (s : State) (p : Pipe) (code : Byte), s.bankSafe →
    let x := s.pipe p
    let u := s.withPipe p { x with lc := { x.lc with panelFault := code } }
    (x.lc.state = .held ∨ x.lc.state = .selecting ∨ x.lc.state = .active →
      EntersRecovery (.panelFault p code) s u p .panelFault) ∧
    (x.lc.state = .off ∨ x.lc.state = .probing ∨ x.lc.state = .recovery → Becomes (.panelFault p code) s u)

/-- MESSAGE_SENT (R19, R21, R27, R29). At the instant its last byte has been sent, the answer timer a PROBE, SELECT or FRAME
supervises starts, of 2,000,000, 4,000 or 4,000 TU, and the first waiting message begins to be sent. What `sent` and
`supervised` are is the model's choice (logs 19, 20). -/
def Obligations.SentMessageStartsItsTimer : Prop :=
  ∀ (s : State) (p : Pipe) (x : Sending),
    let y := s.pipe p
    y.lc.sending = some x → x.endsAt = s.time →
    let timer := match x.message with
      | .probe => 2000000
      | .select _ => 4000
      | .frame _ _ => 4000
      | .hold _ => 0
    let lc := { y.lc with sent := y.lc.sent ++ [x.message],
                          answerDeadline := if x.supervised then some (tuAfter s.time timer) else y.lc.answerDeadline,
                          sending := match y.lc.waiting with
                            | [] => none
                            | m :: _ => some { message := m.message, supervised := m.supervised,
                                               endsAt := tuAfter s.time m.message.sendTU },
                          waiting := y.lc.waiting.tail }
    Becomes (.messageSent p) s (s.withPipe p { y with lc := lc })

/-- PROBE_TIMEOUT and QUIET_INTERVAL_EXPIRY (R21, R23, R24, R33). Below 8 PROBEs another is sent and counted; at 8 the link enters
OFF, with BAD_LIST if a malformed LIST was seen, else NO_ANSWER, and a parked ADMIT is ABORTED. At its quiet interval's end
RECOVERY ends into PROBING. That the answer timer stands still from its expiry until the new PROBE's last byte has been
sent (R19), where R23 restarts it at the expiry and gives 16,000,000 TU in all, is the model's choice (log 29). -/
def Obligations.ProbingAndRecoveryEnd : Prop :=
  ∀ (s : State) (p : Pipe),
    let x := s.pipe p
    (x.lc.state = .probing → x.lc.answerDeadline = some s.time →
      (x.lc.probeCount < 8 → Becomes (.probeTimeout p) s (s.withPipe p
        { x with
          lc := { x.lc with answerDeadline := none, probeCount := x.lc.probeCount + 1 }.plus s.time .probe true })) ∧
      (8 ≤ x.lc.probeCount → ∃ q,
        HandedOver s.rqi s.time [handing x.lc.parkedAdmit .aborted []] q ∧
        Becomes (.probeTimeout p) s
          ({ s.turningOff p (if x.lc.malformedSeen then .badList else .noAnswer) with rqi := q }.noted s))) ∧
    (x.lc.state = .recovery → x.lc.quietEnd = some s.time →
      Becomes (.quietIntervalExpiry p) s ((s.withPipe p (x.probing s.time)).noted s))

/-! Frames. -/

/-- ALIGNED_START and ALIGNMENT_DEADLINE (R83 to R87, R109): frame 1 of a waiting runner starts at its aligned start, into
SEEKING, or at the alignment deadline, into HOLDOVER with REF_LOST. An aligned start leaves the source pulse time as the
last pulse set it, a second pulse after the aligning one included, where R109 names the aligning pulse's (log 34, the
model's choice). -/
def Obligations.WaitingRunnersStartFrameOne : Prop :=
  ∀ (s : State) (p : Pipe), s.peersApart →
    let r := (s.pipe p).fr
    r.state = .aligning →
    (r.alignedStart = some s.time → BeginsFrame (.alignedStart p) s s p .aligned []) ∧
    (r.alignedStart = none → r.alignDeadline = some s.time → BeginsFrame (.alignmentDeadline p) s s p .deadline [])

/-- BURST_START and TRIM_START (R78, R88, R89, R91 to R93). At a WINDOW's end the next BURST starts and its lines are released; at
a BLANK's end the TRIM starts, and its end is fixed at H + Q + a from now, a the adjustment of this instant, which the
lock keeps. -/
def Obligations.SlotStartsByThePlan : Prop :=
  ∀ (s : State) (p : Pipe) (start len first count : Nat) (x y : Slot),
    let z := s.pipe p
    z.fr.reaches s.time x y →
    (∀ a n j k noisy, x = .window a n j k noisy → y = .burst start len first count →
      Becomes (.burstStart p) s (s.withPipe p
        { z with fr := { z.fr with slot := z.fr.slot + 1, lpo := z.fr.lpo ++ [releaseMark first count] } })) ∧
    (∀ a n f m pl c, x = .blank a n f m → y = .trim start len → z.fr.plan = some pl → z.pb.contract = some c →
      let adjustment := z.lock.adjustment c
      Becomes (.trimStart p) s (s.withPipe p
        { z with fr := { z.fr with slot := z.fr.slot + 1,
                                   trimEnd := some (tuAfter s.time ((pl.h : Int) + pl.q + adjustment).toNat) },
                 lock := { z.lock with trim := adjustment } }))

/-- WINDOW_START (R89, R90, R127, R128, R134, R136). The BURST completes its bands, HOLD is handed to link 1 with the plan's Lw′, and,
with surface 0 enabled, a window request arrives at the bank, with the window's end, the frame number's low byte, the
ordinal and the noisy flag. -/
def Obligations.WindowStartAsksForTheBank : Prop :=
  ∀ (s : State) (a n first count start len ordinal shift : Nat) (noisy : Bool) (pl : Plan),
    let z := s.pipe .p1
    z.fr.reaches s.time (.burst a n first count) (.window start len ordinal shift noisy) → z.fr.plan = some pl →
    let x := (z.burstEnded s.time first count).inNextSlot
    let u := s.withPipe .p1
      { x with lc := x.lc.plus s.time (.hold (BitVec.ofNat 32 pl.lw)) false }
    let ends := tuAfter z.fr.frameStart (start + len)
    ∃ q, HandedOver s.rqi s.time [z.burstHands s.time first count] q ∧
      (s.surfaces.s0.enabled = false → Becomes .windowStart s ({ u with rqi := q }.noted s)) ∧
      (s.surfaces.s0.enabled = true →
        Becomes .windowStart s ({ u.arriving (u.windowAsked ends ordinal noisy) with rqi := q }.noted s))

/-- PLAN_POINT (R50, R51, R52, R59, R89, R92). The last BURST completes its bands; a STAGED NEGOTIATE selects a contract; and the next
frame's plan is built and published from the selected contract of the same mode, or from the contract in force, or,
where the mode changes, not at all. -/
def Obligations.PlanPointPlansTheNextFrame : Prop :=
  ∀ (s : State) (p : Pipe) (a n first count b m f k : Nat) (old : Contract),
    let z := s.pipe p
    z.fr.reaches s.time (.burst a n first count) (.blank b m f k) → z.pb.contract = some old →
    let x := (z.burstEnded s.time first count).inNextSlot
    let c := s.selection p
    let staged := s.withPipe p { x with pb := { x.pb with selected := some c, counter := c.number, phase := .selected } }
    let planFrom := fun d : Contract =>
      buildPlan (z.fr.frameNumber + 1) d (s.quietOf p).1 (s.quietOf p).2
    ∃ q, HandedOver s.rqi s.time [z.burstHands s.time first count] q ∧
      let done := fun u : State => Becomes (.planPoint p) s ({ u with rqi := q }.noted s)
      (z.pb.phase = .staged →
        (c.modeIndex = old.modeIndex → done (staged.planned p (planFrom c))) ∧
        (c.modeIndex ≠ old.modeIndex → done staged)) ∧
      (z.pb.phase ≠ .staged →
        (∀ d, z.pb.selected = some d → d.modeIndex = old.modeIndex →
          done ((s.withPipe p x).planned p (planFrom d))) ∧
        (∀ d, z.pb.selected = some d → d.modeIndex ≠ old.modeIndex → done (s.withPipe p x)) ∧
        (z.pb.selected = none → done ((s.withPipe p x).planned p (planFrom old))))

/-- TRIM_END and STRETCH_LIMIT (R51, R52, R94 to R96, R110 to R112, R118, R126, R129, 5.3). The trim line's end takes a RELAXED
frame with Fr above F and no pull-in pending into STRETCH, until its start plus Fr, a mode change waiting or not; that the
stretch comes before a mode change is R52, where R94's first case ends the frame at its trim line (log 30). In any other
case, and at the stretch limit, the frame ends: into SELECTING for a mode change, else into the next frame, with the frame
start's own effects. Of a contract
that then replaces another under a lock, the recent pulse of R110 is the last accepted pulse or the other pipe's last
frame start, within 2·F of the new contract, its first instant counted (log 12); without one the source pulse time and
the silence start become none and the frame is not measured (log 24), and a move from LOCKED to SEEKING there sets no
LOCK_LOST (log 32): all of these are the model's choices. -/
def Obligations.FramesEndByCadence : Prop :=
  (∀ (s : State) (p : Pipe) (c : Contract) (t : Word), s.recentPulse p c = some t ↔
    (s.time - t).toNat ≤ 2 * c.f ∧
      (c.cadence = .lockedRef ∧ s.ref.lastPulse = some t ∨
        c.cadence = .lockedPeer ∧ (s.pipe (otherPipe p)).lock.lastFrameStart = some t)) ∧
  ∀ (s : State) (p : Pipe) (c : Contract), s.peersApart →
    let x := s.pipe p
    x.pb.contract = some c →
    let stretches := c.cadence = .relaxed ∧ c.f < c.fr ∧ x.fr.pullIn = false
    let trimEnds := (∃ pl k a n, x.fr.inSlot pl k (.trim a n)) ∧ x.fr.trimEnd = some s.time
    (trimEnds → stretches → Becomes (.trimEnd p) s (s.withPipe p
      { x with fr := { x.fr with state := .stretch, slot := 0, trimEnd := none,
                                 stretchLimit := some (tuAfter x.fr.frameStart c.fr) } })) ∧
    (trimEnds → ¬ stretches → EndsFrame (.trimEnd p) s s p) ∧
    (x.fr.state = .stretch → x.fr.stretchLimit = some s.time → EndsFrame (.stretchLimit p) s s p)

/-! The reference and the lock. -/

/-- GENERATED_PULSE and REFSYNC_EDGE (R83, R85, R100, R104 to R107, R109, R114, R182). A reference pulse, at the generator phase
under INTERNAL or by an accepted edge under EXTERNAL, becomes the last pulse, pulses each REFERENCE pin, and reaches each
pipe under LOCKED_REF; an edge makes the source PRESENT, a generated pulse moves the phase on by Fref. A runner that it
finds waiting in ALIGNING with offset 0 starts frame 1 in the same event, and so may both. An edge less than half a period
after the last pulse is only counted; under INTERNAL an edge changes nothing. That a pulse after the aligning one moves
the source pulse time of a waiting runner is log 34, and that an edge at the instant of a SET_REFERENCE taken before it
is accepted, as no pulse is recorded then, is log 35: the model's choices. -/
def Obligations.ReferencePulsesReachTheirPipes : Prop :=
  ∀ s : State, s.peersApart →
    let starts := fun p : Pipe => (s.pipe p).follows .lockedRef = true ∧ (s.pipe p).startsOnPulse = true
    let after := fun p : Pipe =>
      if (s.pipe p).follows .lockedRef then (s.pipe p).pulsed s.time else s.pipe p
    let pulse := fun ref : RefUnit =>
      { s with ref := { ref with lastPulse := some s.time }, pipes := ⟨after .p0, after .p1⟩,
               pins := pinsPulsed s.pins .reference s.time : State }
    let reaches := fun (c : Instr) (m : State) =>
      (¬ starts .p0 → ¬ starts .p1 → Becomes c s (m.noted s)) ∧
      (∀ p, starts p → ¬ starts (otherPipe p) → BeginsFrame c s m p .aligned []) ∧
      (starts .p0 → starts .p1 → ∃ q,
        HandedOver s.rqi s.time ((s.pipe .p0).startHands .aligned ++ (s.pipe .p1).startHands .aligned) q ∧
        Becomes c s ({ (m.begunAlone .p0 .aligned).begunAlone .p1 .aligned with rqi := q }.noted s))
    let early := ∃ t, s.ref.lastPulse = some t ∧ (s.time - t).toNat < s.ref.fref / 2
    (s.ref.source = .internal → s.ref.genPhase = some s.time →
      reaches .generatedPulse (pulse { s.ref with genPhase := some (tuAfter s.time s.ref.fref) })) ∧
    (s.ref.source = .external → ¬ early → reaches .refsyncEdge (pulse { s.ref with present := true })) ∧
    (s.ref.source = .external → early → Becomes .refsyncEdge s
      { s with ref := { s.ref with earlyCount := min 65535 (s.ref.earlyCount + 1) } }) ∧
    (s.ref.source = .internal → exec .refsyncEdge s = .next s)

/-- PRESENCE_ABSENT and SILENCE_LIMIT (R106, R113). Under EXTERNAL the source becomes ABSENT when 2·Fref has passed since the
last pulse, and no lock moves. A SEEKING or LOCKED pipe whose silence limit, 2·Fref under LOCKED_REF and 2·F under
LOCKED_PEER, has passed since its silence start, now or before (R110 can shorten F), goes to HOLDOVER with REF_LOST, its
counts 0. -/
def Obligations.SilentSourcesAreGivenUp : Prop :=
  ∀ s : State,
    (∀ t, s.ref.source = .external → s.ref.present = true → s.ref.lastPulse = some t →
      tuAfter t (2 * s.ref.fref) = s.time →
      Becomes .presenceAbsent s { s with ref := { s.ref with present := false } }) ∧
    ∀ (p : Pipe) (c : Contract) (t : Word),
      let x := s.pipe p
      x.lock.state = .seeking ∨ x.lock.state = .locked → x.pb.contract = some c → x.lock.silenceStart = some t →
      (c.cadence = .lockedRef ∧ 2 * s.ref.fref ≤ (s.time - t).toNat ∨
        c.cadence = .lockedPeer ∧ 2 * c.f ≤ (s.time - t).toNat) →
      Becomes (.silenceLimit p) s ((s.withPipe p
        { x with lock := { x.lock with state := .holdover, within := 0, beyond := 0 },
                 faults := x.faults.plus [.refLost] }).noted s)

/-- The lock moves by the table of R112: a measurement, |e| of any size, in any state. -/
def Obligations.MeasurementsMoveTheLock : Prop :=
  ∀ (s : State) (p : Pipe) (c : Contract),
    let l := (s.pipe p).lock
    let e := l.errorAt s.time c
    let t := s.measureLock p c
    let l' := (t.pipe p).lock
    let same := { l with phaseError := e, measured := true }
    l' = (if l.state = .seeking ∧ e.natAbs ≤ 16 then
            if l.within + 1 = 4 then { same with state := .locked, within := 0, beyond := 0 }
            else { same with within := l.within + 1 }
          else if l.state = .seeking then { same with within := 0 }
          else if l.state = .locked ∧ e.natAbs ≤ 64 then { same with beyond := 0 }
          else if l.state = .locked then
            if l.beyond + 1 = 2 then { same with state := .seeking, within := 0, beyond := 0 }
            else { same with beyond := l.beyond + 1 }
          else same) ∧
    ((t.pipe p).faults =
      if l.state = .locked ∧ l'.state = .seeking then { (s.pipe p).faults with lockLost := true }
      else (s.pipe p).faults)

/-- The phase error and the trim adjustment (R111, R115). The phase error has the remainder of the raw error on division by F and lies
from −floor(F/2) to F − floor(F/2) − 1. The adjustment is 0 unless the lock is SEEKING or LOCKED and this frame was
measured; else it is −e held to TrimMax and then raised so that the trim line lasts at least Hmin; with H at least Hmin
it never exceeds TrimMax in magnitude, and the trim line never falls below Hmin. That a frame measured before a passage
through HOLDOVER is adjusted all the same in SEEKING is the model's reading (log 31). -/
def Obligations.TrimFollowsThePhaseError : Prop :=
  ∀ (l : LockCtl) (c : Contract) (now pulse : Word), 0 < c.f → c.hmin ≤ c.h →
    let raw : Int := ((now - pulse).toNat : Int) - c.offset
    let e := { l with sourcePulse := some pulse }.errorAt now c
    let half : Int := ((c.f / 2 : Nat) : Int)
    (∃ k : Int, raw = e + k * c.f) ∧ -half ≤ e ∧ e ≤ (c.f : Int) - half - 1 ∧
    let a := l.adjustment c
    let held := max (-(c.trimMax : Int)) (min (c.trimMax : Int) (-l.phaseError))
    (¬ ((l.state = .seeking ∨ l.state = .locked) ∧ l.measured = true) → a = 0) ∧
    ((l.state = .seeking ∨ l.state = .locked) → l.measured = true →
      a = if (c.h : Int) + c.q + held < c.hmin then (c.hmin : Int) - c.h - c.q else held) ∧
    a.natAbs ≤ c.trimMax ∧ (c.hmin : Int) ≤ c.h + c.q + a

/-! The bank, the surfaces and the reports. -/

/-- PAD_TICK and REQUEST_EXPIRY (R135, R136, R143, R144, R154, R159). At a tick the count rises, a pad request with the new count and
its expiry arrives at the bank, and the next tick falls one interval on; that with slack 0 it joins the waiting set of a
bank at work, and is lost by its REQUEST_EXPIRY alone, is log 13. At its expiry a waiting request leaves the waiting set
and is lost: lost count, WINDOW_LOST, and a loss counted in the frame in assembly. -/
def Obligations.PadRequestsArriveAndExpire : Prop :=
  ∀ s : State,
    (s.pct.running = true → s.pct.nextTick = some s.time → Becomes .padTick s (s.ticking.noted s)) ∧
    ∀ (k : Surface) (r : BankRequest), s.bank.waiting.get k = some r → r.expiry = s.time →
      Becomes (.requestExpiry k) s
        ((State.losing { s with bank := { s.bank with waiting := s.bank.waiting.set k none } } k).noted s)

/-- RETUNE_END (R138, R139, R141): the granted request's scan starts, or is lost for want of a row; with none the bank parks on the
surface it was tuned to; a bank left PARKED serves its waiting set. A scan's row count is, of surface 0, the whole rows
that the window's remaining time holds, none at or after its end, so that the scan ends at or before the window; of
surface 1, those the pad window holds. -/
def Obligations.RetunesEndInAScan : Prop :=
  (∀ s : State, s.bankSafe → s.bank.mode = .retuning → s.bank.retuneEnd = s.time →
    (∀ r, s.bank.granted = some r →
      let k := r.surface
      (s.scanRowCount r ≠ 0 → Becomes .retuneEnd s
        { s with bank := s.bank.scanning r k s.time (s.scanRowCount r) (s.surf k).geo.rowTime }) ∧
      (s.scanRowCount r = 0 → Becomes .retuneEnd s
        ((State.freed (State.losing { s with bank := { s.bank with mode := .parked, granted := none } } k)).noted s))) ∧
    (s.bank.granted = none → Becomes .retuneEnd s
      ((State.freed { s with bank := { s.bank with mode := .parked } }).noted s))) ∧
  ∀ (s : State) (ends expiry : Word) (low : Byte) (ordinal : Nat) (noisy : Bool) (tick : Word),
    let n := s.scanRowCount { expiry := expiry, particulars := .window ends low ordinal noisy }
    n = s.windowRows ends ∧
    s.scanRowCount { expiry := expiry, particulars := .pad tick } =
      s.surfaces.s1.geo.padWindow / s.surfaces.s1.geo.rowTime ∧
    (0 < n → n * s.surfaces.s0.geo.rowTime ≤ (ends - s.time).toNat ∧ (ends - s.time).toNat < 2 ^ 31)

/-- SCAN_COMPLETION (R140, R156 to R158). The scan's rows go one by one, in order, to the surface's assembler: row i at the scan's
start plus i times RowTime, with its node values as delivered, row-major, fresh while no row of the scan is in the frame
in assembly; a noisy scan sets NOISY_WINDOW; the bank parks and is freed. A value that is not delivered is a free value
(log 9). -/
def Obligations.ScansDeliverTheirRows : Prop :=
  ∀ (s : State) (r : BankRequest) (nodes : List Half),
    s.bankSafe → s.bank.mode = .scanning → s.bank.scanEnd = s.time → s.bank.granted = some r →
    let k := r.surface
    let geo := (s.surf k).geo
    let source : RowSource :=
      match r.particulars with
      | .window _ low _ noisy => { windowIndex := low, noisy := noisy }
      | .pad tick => { windowIndex := tick.setWidth 8, noisy := false }
    let delivered := fun i : Nat =>
      (List.range geo.cols).map fun c => nodes.getD (i * geo.cols + c) (Config.nodeValue s.free (i * geo.cols + c))
    ∃ rows : Nat → State × Bool, rows 0 = (s, true) ∧
      (∀ i, rows (i + 1) = (rows i).1.takeRow k (rows i).2 (tuAfter s.bank.scanStart (i * geo.rowTime)) source
        (delivered i)) ∧
      let u := (rows s.bank.scanRows).1
      let v := if source.noisy then
          u.withSurf k { u.surf k with faults := { (u.surf k).faults with noisyWindow := true } }
        else u
      Becomes (.scanCompletion nodes) s
        ((State.freed { v with bank := { v.bank with mode := .parked, granted := none } }).noted s)

/-- One row of a scan (R156, R157, R158, R160, R161, R168). It opens a frame where the cursor is 0; it is kept with its offset,
window index and noisy mark, and counted. The row that fills the grid completes the touch frame, which joins the held
list, a full list discarding its head, and the Report Writer checks for a write; the assembler begins anew. That the
writer checks before the next row of the same scan is log 14, and the number of the join log 21: the model's choices. -/
def Obligations.RowsFillTouchFrames : Prop :=
  ∀ (s : State) (k : Surface) (fresh : Bool) (instant : Word) (src : RowSource) (nodes : List Half),
    let x := s.surf k
    let first := if x.cursor = 0 then instant else x.asm.firstRow.getD instant
    let a : Assembly :=
      { firstRow := some first,
        rows := x.asm.rows ++ [{ offset := instant - first, windowIndex := src.windowIndex, noisy := src.noisy,
                                 nodes := nodes }],
        used := if fresh then x.asm.used + 1 else x.asm.used, lost := x.asm.lost,
        noisyRows := if src.noisy then x.asm.noisyRows + 1 else x.asm.noisyRows }
    let r := s.takeRow k fresh instant src nodes
    (x.cursor + 1 < x.geo.rows → r = (s.withSurf k { x with asm := a, cursor := x.cursor + 1 }, false)) ∧
    (x.geo.rows ≤ x.cursor + 1 →
      let f : TouchFrame :=
        { surface := k, firstRow := first, completed := tuAfter instant x.geo.rowTime, rows := x.geo.rows,
          cols := x.geo.cols, used := a.used, lost := a.lost, noisyRows := a.noisyRows,
          pipe1Frame := if k = .s0 then s.pipes.p1.fr.frameNumber else 0, rowData := a.rows, joined := 0 }
      let skips := decide (2 ≤ x.held.length) && !x.faults.frameSkipped
      r = ({ (State.joining (s.withSurf k x.abandoned) k f).writerChecks with
             notice := { s.notice with fault := s.notice.fault || skips } }, true))

/-- WRITE_COMPLETION (R166, R168 to R171, 12.5). The block holds the frame's header, row table and node area; its claim word is the
surface's next sequence number; the block is FILLED and marked; REPORT is noticed; the sequence advances, past
4,294,967,295 to 1; the writer checks for the next write. Nothing outside the block is written but the surface record. -/
def Obligations.WritesFillTheBlock : Prop :=
  ∀ (s : State) (j : WriteJob),
    s.rpw.writer = some j → j.endsAt = s.time → j.frame.rowData.length ≤ 64 →
    (j.frame.rowData.flatMap (·.nodes)).length ≤ 1024 →
    let k := j.frame.surface
    let seq := s.rpw.nextSeq.get k
    let base := blockBase j.block
    let u : State :=
      { s with
        filledMarks := s.filledMarks.set j.block true, notice := { s.notice with report := true },
        rpw := { s.rpw with
          blocks := s.rpw.blocks.set j.block .filled, writer := none,
          nextSeq := s.rpw.nextSeq.set k (if seq.toNat + 1 = 2 ^ 32 then 1 else seq + 1) } }
    ∃ t, exec .writeCompletion s = .next t ∧ t.bare = u.writerChecks.bare ∧
      t.mem.readWord base = seq ∧ t.mem.readBytes (base + 4) 44 = j.header ∧
      t.mem.readBytes (base + 0x30) (6 * j.frame.rowData.length) = j.frame.rowData.flatMap TouchRow.bytes ∧
      (∀ i v, (j.frame.rowData.flatMap (·.nodes))[i]? = some v →
        t.mem.read (base + 0x1B0 + 2 * i) = v.extractLsb' 0 8 ∧
        t.mem.read (base + 0x1B0 + 2 * i + 1) = v.extractLsb' 8 8) ∧
      ∀ a, ¬ inRange a base (0x30 + 6 * j.frame.rowData.length) →
        ¬ inRange a (base + 0x1B0) (2 * (j.frame.rowData.flatMap (·.nodes)).length) →
        ¬ s.recordChanged t a → t.mem.read a = s.mem.read a

/-- PIN_PULSE_END (R182, R183): at its pulse end time the pin goes low, and nothing else changes; a pin of a pulse source is high
exactly while its pulse end time is present, and a pin of a level source exactly while its condition holds. -/
def Obligations.PulsesEndAndLevelsFollow : Prop :=
  ∀ (s : State) (k : Fin 4),
    (s.pins[k].pulseEnd = some s.time → ∃ t, exec (.pinPulseEnd k) s = .next t ∧
      t = { s with pins := s.pins.set k { s.pins[k] with pulseEnd := none } } ∧
      (s.pins[k].source = .reference ∨ (∃ p, s.pins[k].source = .frameStart p) → t.pinLevel k = false)) ∧
    (s.pins[k].source = .none → s.pinLevel k = false) ∧
    (s.pins[k].source = .reference ∨ (∃ p, s.pins[k].source = .frameStart p) →
      (s.pinLevel k = true ↔ s.pins[k].pulseEnd.isSome = true)) ∧
    (s.pins[k].source = .windowActive → (s.pinLevel k = true ↔
      ∃ pl i a n j m noisy, (s.pipe .p1).fr.inSlot pl i (.window a n j m noisy))) ∧
    (∀ f, s.pins[k].source = .scanActive f → (s.pinLevel k = true ↔ s.bank.mode = .scanning ∧ s.bank.surface = f)) ∧
    (∀ p, s.pins[k].source = .locked p → (s.pinLevel k = true ↔ (s.pipe p).lock.state = .locked)) ∧
    (s.pins[k].source = .reportPending → (s.pinLevel k = true ↔ ∃ b : Fin 16, s.rpw.blocks[b] = .filled)) ∧
    (s.pins[k].source = .faultAny → (s.pinLevel k = true ↔
      (∃ p f, (s.pipe p).faults.get f = true) ∨ ∃ x f, (s.surf x).faults.get f = true))

/-! Contracts and plans. -/

/-- A selection takes the first pair that fits, offers in preference order outside and modes in panel order inside (R41 to R44,
R46), and the contract holds the pair's values under the next number. -/
def Obligations.SelectionTakesTheFirstFit : Prop :=
  ∀ (s : State) (p : Pipe) (i j : Nat) (o : Offer) (m : ModeRecord),
    let x := s.pipe p
    x.pb.offers[i]? = some o → x.lc.modes[j]? = some m → s.pairFits p o m →
    (∀ i' < i, ∀ o', x.pb.offers[i']? = some o' → ∀ m' ∈ x.lc.modes, ¬ s.pairFits p o' m') →
    (∀ j' < j, ∀ m', x.lc.modes[j']? = some m' → ¬ s.pairFits p o m') →
    let w := pairWindows p o m
    let lw := pairLength p o m
    let n := m.v.toNat + m.vb.toNat
    let locks := o.cadence = .lockedRef ∨ o.cadence = .lockedPeer
    s.selection p =
      { number := x.pb.nextNumber, offerIndex := i + 1, modeIndex := j + 1, v := m.v.toNat, vb := m.vb.toNat, n := n,
        hmin := m.hmin.toNat, f := o.f, h := (o.f - w * lw) / n, q := (o.f - w * lw) % n, w := w, lw := lw,
        cadence := o.cadence, fr := if o.cadence = .relaxed then o.fr else o.f,
        offset := if locks then o.offset else 0, trimMax := if locks then o.trimMax else 0,
        clamped := decide (w < o.w), raised := decide (o.lw < lw), fallback := false, reason := .offer }

/-- The fallback contract (R45), on mode 1, where the stored offers are empty or no pair fits. -/
def Obligations.NothingFitsGivesTheFallback : Prop :=
  ∀ (s : State) (p : Pipe) (m : ModeRecord) (rest : List ModeRecord),
    let x := s.pipe p
    x.lc.modes = m :: rest → (∀ o ∈ x.pb.offers, ∀ m' ∈ x.lc.modes, ¬ s.pairFits p o m') →
    240 ≤ m.v.toNat → 4 ≤ m.vb.toNat → 100 ≤ m.hmin.toNat → m.hmin.toNat ≤ 4000 →
    let n := m.v.toNat + m.vb.toNat
    let f := max 200000 (n * m.hmin.toNat)
    let c := s.selection p
    c = { number := x.pb.nextNumber, offerIndex := 0, modeIndex := 1, v := m.v.toNat, vb := m.vb.toNat, n := n,
          hmin := m.hmin.toNat, f := f, h := f / n, q := f - f / n * n, w := 0, lw := 0, cadence := .free, fr := f,
          offset := 0, trimMax := 0, clamped := false, raised := false, fallback := true,
          reason := if x.pb.offers = [] then .noOffers else .noFit } ∧
    n * m.hmin.toNat ≤ c.f ∧ m.hmin.toNat ≤ c.h ∧ c.h ≤ max 819 m.hmin.toNat ∧ c.h < 65535

/-- The sums of a plan (R67) that any contract of R42 or R45 gives, with any quiet spans and ShiftMax: the burst line counts sum to
V and none is 0; the bursts last V·H, the windows W′·Lw′, the BLANK (Vb − 1)·H and the TRIM H + Q, at least Hmin; and
the slot lengths sum to F. The slots are contiguous from 0 on (R57). -/
def Obligations.PlanSumsToTheFrame : Prop :=
  ∀ (frame : Word) (c : Contract) (spans : List Span) (shiftMax : Nat),
    c.n = c.v + c.vb → 240 ≤ c.v → 4 ≤ c.vb → c.w ≤ 16 → c.f = c.w * c.lw + c.n * c.h + c.q → 1 ≤ c.hmin →
    c.hmin ≤ c.h →
    let slots := (buildPlan frame c spans shiftMax).slots
    let lengths := fun kind : SlotKind => ((slots.filter fun x => decide (x.kind = kind)).map Slot.length).sum
    let lines := slots.filterMap fun x => match x with
      | .burst _ _ _ count => some count
      | _ => none
    lines.sum = c.v ∧ (∀ n ∈ lines, 1 ≤ n) ∧ (slots.map Slot.length).sum = c.f ∧
      lengths .burst = c.v * c.h ∧ lengths .window = c.w * c.lw ∧ lengths .blank = (c.vb - 1) * c.h ∧
      lengths .trim = c.h + c.q ∧ c.hmin ≤ lengths .trim ∧
      (slots.head?.map Slot.start) = some 0 ∧
      ∀ i x y, slots[i]? = some x → slots[i + 1]? = some y → y.start = x.start + x.length

/-- Quiet spans and windows in a plan (R56, R57, R64 to R66, R71 to R73). A window's shift is the least number of lines that
clears the spans, within ShiftMax and leaving a line in the next burst; where none does, the window stands at its nominal
start and is noisy. Window j of a plan is placed so, from its nominal start, with the nominal count of burst j+1; the
bursts take the lines between the windows; BLANK and TRIM follow, and the header holds the contract's values. -/
def Obligations.WindowsShiftPastQuietSpans : Prop :=
  (∀ (spans : List Span) (shiftMax lw h a next : Nat),
    let meets := fun k : Nat => ∃ x ∈ spans, a + k * h < x.stop ∧ x.start < a + k * h + lw
    let allowed := fun k : Nat => k ≤ shiftMax ∧ (k = 0 ∨ k < next)
    let placed := placeWindow spans shiftMax lw h a next
    (placed.noisy = true → placed.shift = 0 ∧ ∀ k, allowed k → meets k) ∧
    (placed.noisy = false → allowed placed.shift ∧ ¬ meets placed.shift ∧ ∀ k < placed.shift, meets k)) ∧
  ∀ (frame : Word) (c : Contract) (spans : List Span) (shiftMax : Nat),
    let plan := buildPlan frame c spans shiftMax
    let nominal := fun i : Nat => c.v / (c.w + 1) + if i < c.v % (c.w + 1) then 1 else 0
    let before := fun i : Nat => ((List.range i).map nominal).sum
    let placed := fun j : Nat => placeWindow spans shiftMax c.lw c.h (before j * c.h + (j - 1) * c.lw) (nominal j)
    let lines := fun j : Nat => before j + if 1 ≤ j ∧ j ≤ c.w then (placed j).shift else 0
    let blank := c.v * c.h + c.w * c.lw
    plan = { frameNumber := frame, contractNumber := c.number, f := c.f, h := c.h, q := c.q, w := c.w, lw := c.lw,
             v := c.v, vb := c.vb, cadence := c.cadence, slots := plan.slots } ∧
    plan.slots.length = 2 * c.w + 3 ∧
    (∀ i ≤ c.w, plan.slots[2 * i]? = some (.burst (lines i * c.h + i * c.lw) ((lines (i + 1) - lines i) * c.h) (lines i)
      (lines (i + 1) - lines i))) ∧
    (∀ j, 1 ≤ j → j ≤ c.w → plan.slots[2 * j - 1]? =
      some (.window (lines j * c.h + (j - 1) * c.lw) c.lw j (placed j).shift (placed j).noisy)) ∧
    plan.slots[2 * c.w + 1]? = some (.blank blank ((c.vb - 1) * c.h) c.v (c.vb - 1)) ∧
    plan.slots[2 * c.w + 2]? = some (.trim (blank + (c.vb - 1) * c.h) (c.h + c.q))

/-! What every step keeps. -/

/-- One pipe's events leave the other pipe alone (R34 to R37): whatever its panel sends and its timers and frames do changes nothing of
the other pipe, unless that pipe follows its frame starts under LOCKED_PEER. -/
def Obligations.PipesLeaveEachOtherAlone : Prop :=
  ∀ (c : Instr) (p : Pipe) (s t : State),
    ((∃ bytes, c = .messageRejected p bytes) ∨ (∃ modes, c = .list p modes) ∨ (∃ a b, c = .ack p a b) ∨
      (∃ code, c = .panelFault p code) ∨
      c ∈ [.nak p, .messageSent p, .probeTimeout p, .selectTimeout p, .frameAckTimeout p, .quietIntervalExpiry p,
        .alignedStart p, .alignmentDeadline p, .burstStart p, .planPoint p, .trimStart p, .trimEnd p, .stretchLimit p,
        .silenceLimit p] ∨ (c = .windowStart ∧ p = .p1)) →
    (s.pipe (otherPipe p)).follows .lockedPeer = false → exec c s = .next t →
    t.pipe (otherPipe p) = s.pipe (otherPipe p)

/-- Every step keeps Work Memory's canonical form, from any state that has it. -/
def Obligations.StepsKeepMemoryForm : Prop := ∀ s t : State, s.mem.wf → step s = .next t → t.mem.wf

/-- Every step from a safe state keeps the cells and the requests in step (R6, R7, R11, R12): each part-owned cell is in exactly
one place, which its state names, and its code word is non-zero exactly while it is part-owned. -/
def Obligations.StepsKeepCellsSafe : Prop := ∀ s t : State, s.safe → step s = .next t → t.cellsSafe

/-- Every step from a safe state keeps each pipe's link, contract, plans, runner and lock in agreement, and the pipes from
following each other (R35, R38, R43, R57, R61, R81, R94, R108 to R110). -/
def Obligations.StepsKeepPipesSafe : Prop := ∀ s t : State, s.safe → step s = .next t → t.pipesSafe

/-- Every step from a safe state keeps the bank held by one surface at most, its granted request of the bank surface and its
waiting set empty while PARKED (R132, R133), its granted and waiting requests those of enabled surfaces alone (R133), the
pad timer running exactly while surface 1 is enabled (R154), and in their ranges these fields: mode list, its records and the
counts of R20; stored offers, and the fields of the contract in force and the selected one (R38, R46); current slot,
alignment deadline, aligned start and the plans' slot counts (R81); last phase error, last trim adjustment, within and
beyond counts (R101); band count, lines and deadline (R123), the lines of a band with no serving frame below V of the
contract in force, of any band below 2160; quiet spans, sorted and apart, and ShiftMax (R58); Fref and early-pulse count
(R100); scan rows (R132); geometry, row cursor, frame in assembly, held list and skip counter (R149). -/
def Obligations.StepsKeepBankAndBounds : Prop :=
  ∀ s t : State, s.safe → step s = .next t → t.bankSafe ∧ t.sensingSafe ∧ t.bounded

/-- Every step from a safe state keeps each report block FREE, WRITING or FILLED as the free list, the writer, the marks and the
claim words say (R165, R166). -/
def Obligations.StepsKeepBlocksSafe : Prop := ∀ s t : State, s.safe → step s = .next t → t.blocksSafe

/-- Every step from a safe state keeps each status record showing the fields of its block, once READY (R20, R99, R100, R147,
R149, R187). -/
def Obligations.StepsKeepRecordsMirrored : Prop := ∀ s t : State, s.safe → step s = .next t → t.mirrored

/-- Each rewriting of a status record raises its version word by 1, once in an event, and an event that changes none of its fields
leaves the record and its version alone (R20, R99, R100, R147, R149). Two events rewrite a record though its fields may end
as they began: PIPE_RESTART its pipe's, through OFF (R20), and a scan's completion its surface's, whose cursor moves with
each row and whose held list at each join and take (R149, R162, R168). Resets and the end of initialisation apart. That
an event counts once is log 5, and that the fields of a pipe record are those it shows, so that a change of the parked
ADMIT alone rewrites nothing, is log 37: both are the model's choices. So is that this holds before READY too (log 38). -/
def Obligations.RecordVersionsCountChanges : Prop :=
  ∀ (c : Instr) (s t : State),
    c.resets = false → c ≠ .initialisationCompletion → exec c s = .next t →
    let kept := fun base n : Nat => t.mem.readBytes base n = s.mem.readBytes base n
    let restarts := fun p : Pipe => c = .pipeRestart ∧ ∃ r, s.takes 0x04 r ∧ r.targetsPipe p
    let delivers := fun k : Surface => (∃ nodes, c = .scanCompletion nodes) ∧ s.bank.mode = .scanning ∧
      s.bank.scanEnd = s.time ∧ ∃ r, s.bank.granted = some r ∧ r.surface = k
    let bankFields := fun b : Bank => { b with version := 0 }
    (∀ p, (s.pipeView p = t.pipeView p → ¬ restarts p →
        (t.pipe p).version = (s.pipe p).version ∧ kept (pipeRecordBase p) 512) ∧
      (s.pipeView p ≠ t.pipeView p ∨ restarts p → (t.pipe p).version = (s.pipe p).version + 1 ∧
        t.mem.readBytes (pipeRecordBase p) 512 = t.pipeRecord p)) ∧
    (∀ k, (s.surfaceView k = t.surfaceView k → ¬ delivers k →
        (t.surf k).version = (s.surf k).version ∧ kept (surfaceRecordBase k) 128) ∧
      (s.surfaceView k ≠ t.surfaceView k ∨ delivers k → (t.surf k).version = (s.surf k).version + 1 ∧
        t.mem.readBytes (surfaceRecordBase k) 128 = t.surfaceRecord k)) ∧
    (bankFields s.bank = bankFields t.bank → t.bank.version = s.bank.version ∧ kept bankRecordBase 64) ∧
    (bankFields s.bank ≠ bankFields t.bank → t.bank.version = s.bank.version + 1 ∧
      t.mem.readBytes bankRecordBase 64 = t.bank.bytes) ∧
    (s.ref.mirrored = t.ref.mirrored → t.ref.version = s.ref.version ∧ kept refRecordBase 64) ∧
    (s.ref.mirrored ≠ t.ref.mirrored → t.ref.version = s.ref.version + 1 ∧
      t.mem.readBytes refRecordBase 64 = t.ref.bytes)

/-- The part leaves the host's memory alone (R2, R6, R13, R15, R166, R170): a step that runs no host write and no power-on reset, from
a safe state, changes no byte of the host-free region, of a HOST_OWNED cell or of a FILLED block. -/
def Obligations.PartLeavesHostMemoryAlone : Prop :=
  ∀ s t : State, s.safe → step s = .next t →
    (∀ c, s.pending.head? = some c → c.portWrite = none ∧ c ≠ .powerOnReset) →
    ∀ a, (0xC000 ≤ a ∨ (∃ c : Fin 16, s.cells[c] = .hostOwned ∧ inRange a (cellBase c) 256) ∨
        ∃ b : Fin 16, s.rpw.blocks[b] = .filled ∧ inRange a (blockBase b) 2560) →
      t.mem.read a = s.mem.read a

/-- Flags stay set (R16, R177, R178): but for a reset, a NOTICE flag is cleared by a write to NOTICE alone, and a fault flag by a
CLEAR_FAULTS alone. -/
def Obligations.FlagsStayUntilCleared : Prop :=
  ∀ (c : Instr) (s t : State), c.resets = false → exec c s = .next t →
    ((∀ a v, c.portWrite = some (a, v) → portTarget (alignWord a) ≠ .notice) →
      (s.notice.cell = true → t.notice.cell = true) ∧ (s.notice.report = true → t.notice.report = true) ∧
      (s.notice.pipe = true → t.notice.pipe = true) ∧ (s.notice.fault = true → t.notice.fault = true)) ∧
    (c ≠ .clearFaults →
      (∀ p f, (s.pipe p).faults.get f = true → (t.pipe p).faults.get f = true) ∧
      ∀ k f, (s.surf k).faults.get f = true → (t.surf k).faults.get f = true)
end

