-- ==== Sys2Proof/Laws/Memory.lean ====
section
/-! SUPPORT. Laws of Work Memory: reading after writing, and the canonical form, which every memory operation keeps. -/

namespace Sys2Proof.Machine

/-! Reading. -/

theorem Memory.read_append (m n : Memory) (x : Nat) (h : ∀ c ∈ m, c.1 ≠ x) :
    Memory.read (m ++ n) x = Memory.read n x := by
  induction m with
  | nil => rfl
  | cons c m ih =>
    have hc : c.1 ≠ x := h c (by simp)
    simp only [List.cons_append, Memory.read, if_neg hc]
    exact ih fun d hd => h d (by simp [hd])

theorem Memory.read_of_absent (m : Memory) (x : Nat) (h : ∀ c ∈ m, c.1 ≠ x) : m.read x = 0 := by
  simpa [Memory.read] using Memory.read_append m [] x h

/-- Reading through a filter that keeps the address. -/
theorem Memory.read_filter (m : Memory) (x : Nat) (keep : Host.Cell → Bool) (h : ∀ b, keep (x, b) = true) :
    Memory.read (m.filter keep) x = m.read x := by
  induction m with
  | nil => rfl
  | cons c m ih =>
    obtain ⟨k, b⟩ := c
    by_cases hk : k = x
    · subst hk; simp [h, Memory.read]
    · by_cases hb : keep (k, b) = true <;> simp [hb, Memory.read, hk, ih]

/-- Reading an address that the first part of a memory settles. -/
theorem Memory.read_append_left (m n : Memory) (x : Nat) (h : ∀ c ∈ n, c.1 ≠ x) :
    Memory.read (m ++ n) x = m.read x := by
  induction m with
  | nil => simpa [Memory.read] using Memory.read_of_absent n x h
  | cons c m ih => obtain ⟨k, b⟩ := c; simp only [List.cons_append, Memory.read, ih]

theorem Memory.mem_ofBytes {a : Nat} {bs : List Byte} {c : Host.Cell} (h : c ∈ Memory.ofBytes a bs) :
    a ≤ c.1 ∧ c.1 < a + bs.length ∧ c.2 ≠ 0 := by
  induction bs generalizing a with
  | nil => simp [Memory.ofBytes] at h
  | cons b bs ih =>
    simp only [Memory.ofBytes] at h
    split at h
    · obtain ⟨h1, h2, h3⟩ := ih h
      exact ⟨by omega, by simp only [List.length_cons]; omega, h3⟩
    · rcases List.mem_cons.1 h with rfl | h
      · exact ⟨Nat.le_refl _, by simp only [List.length_cons]; omega, by assumption⟩
      · obtain ⟨h1, h2, h3⟩ := ih h
        exact ⟨by omega, by simp only [List.length_cons]; omega, h3⟩

theorem Memory.read_ofBytes (a : Nat) (bs : List Byte) (x : Nat) (h : a ≤ x) :
    (Memory.ofBytes a bs).read x = bs.getD (x - a) 0 := by
  induction bs generalizing a with
  | nil => simp [Memory.ofBytes, Memory.read]
  | cons b bs ih =>
    have out : x = a → ∀ c ∈ Memory.ofBytes (a + 1) bs, c.1 ≠ x := by
      intro hx c hc; have := Memory.mem_ofBytes hc; omega
    simp only [Memory.ofBytes]
    by_cases hx : x = a
    · subst hx
      split
      · next hb => simp [hb, Memory.read_of_absent _ _ (out rfl)]
      · simp [Memory.read]
    · have hx' : x - a = (x - (a + 1)) + 1 := by omega
      have := ih (a + 1) (by omega)
      split
      · rw [this, hx', List.getD_cons_succ]
      · rw [Memory.read, if_neg (by omega), this, hx', List.getD_cons_succ]

/-- A byte after a run of bytes has been stored. -/
theorem Memory.read_writeBytes (m : Memory) (a : Nat) (bs : List Byte) (x : Nat) :
    (m.writeBytes a bs).read x = if a ≤ x ∧ x < a + bs.length then bs.getD (x - a) 0 else m.read x := by
  have hb : ∀ c ∈ m.below a, c.1 < a := by intro c hc; simpa [Memory.below] using (List.mem_filter.1 hc).2
  have ha : ∀ c ∈ m.atOrAbove (a + bs.length), a + bs.length ≤ c.1 := by
    intro c hc; simpa [Memory.atOrAbove] using (List.mem_filter.1 hc).2
  have ho : ∀ c ∈ Memory.ofBytes a bs, a ≤ c.1 ∧ c.1 < a + bs.length := fun c hc =>
    ⟨(Memory.mem_ofBytes hc).1, (Memory.mem_ofBytes hc).2.1⟩
  unfold Memory.writeBytes
  by_cases h1 : x < a
  · rw [if_neg (by omega), List.append_assoc, Memory.read_append_left]
    · exact Memory.read_filter m x _ fun b => by simpa using h1
    · intro c hc
      rcases List.mem_append.1 hc with h | h
      · have := ho c h; omega
      · have := ha c h; omega
  · by_cases h2 : x < a + bs.length
    · rw [if_pos ⟨by omega, h2⟩, Memory.read_append_left]
      · rw [Memory.read_append _ _ _ fun c hc => by have := hb c hc; omega]
        exact Memory.read_ofBytes a bs x (by omega)
      · intro c hc; have := ha c hc; omega
    · rw [if_neg (by omega), Memory.read_append]
      · exact Memory.read_filter m x _ fun b => by simpa using Nat.le_of_not_lt h2
      · intro c hc
        rcases List.mem_append.1 hc with h | h
        · have := hb c h; omega
        · have := ho c h; omega

theorem Memory.read_writeBytes_off (m : Memory) (a : Nat) (bs : List Byte) (x : Nat)
    (h : ¬ (a ≤ x ∧ x < a + bs.length)) : (m.writeBytes a bs).read x = m.read x := by
  rw [Memory.read_writeBytes, if_neg h]

theorem Memory.read_clear (m : Memory) (lo hi x : Nat) :
    (m.clear lo hi).read x = if lo ≤ x ∧ x < hi then 0 else m.read x := by
  by_cases h : lo ≤ x ∧ x < hi
  · rw [if_pos h]
    refine Memory.read_of_absent _ _ fun c hc => ?_
    have := (List.mem_filter.1 hc).2
    simp only [decide_eq_true_eq] at this
    omega
  · rw [if_neg h]
    exact Memory.read_filter m x _ fun b => by simp only [decide_eq_true_eq]; omega

@[simp] theorem wordBytes_length (w : Word) : (wordBytes w).length = 4 := rfl

theorem wordOfBytes_wordBytes (w : Word) :
    wordOfBytes (w.extractLsb' 0 8) (w.extractLsb' 8 8) (w.extractLsb' 16 8) (w.extractLsb' 24 8) = w := by
  ext i hi
  simp only [wordOfBytes, ← BitVec.getLsbD_eq_getElem]
  grind

/-- A word reads back as stored. -/
theorem Memory.readWord_writeWord (m : Memory) (a : Nat) (w : Word) : (m.writeWord a w).readWord a = w := by
  simp only [Memory.readWord, Memory.writeWord, Memory.read_writeBytes, wordBytes_length]
  simp only [show a ≤ a ∧ a < a + 4 from by omega, show a ≤ a + 1 ∧ a + 1 < a + 4 from by omega,
    show a ≤ a + 2 ∧ a + 2 < a + 4 from by omega, show a ≤ a + 3 ∧ a + 3 < a + 4 from by omega]
  simp only [and_self, if_true, Nat.sub_self, Nat.add_sub_cancel_left, wordBytes, List.getD_cons_zero,
    List.getD_cons_succ]
  exact wordOfBytes_wordBytes w

theorem Memory.read_writeWord_off (m : Memory) (a : Nat) (w : Word) (x : Nat) (h : ¬ (a ≤ x ∧ x < a + 4)) :
    (m.writeWord a w).read x = m.read x := Memory.read_writeBytes_off m a _ x h

/-- A word apart from what was stored reads as before. -/
theorem Memory.readWord_congr {m n : Memory} {a : Nat} (h : ∀ x, a ≤ x → x < a + 4 → m.read x = n.read x) :
    m.readWord a = n.readWord a := by
  simp only [Memory.readWord, h a (by omega) (by omega), h (a + 1) (by omega) (by omega),
    h (a + 2) (by omega) (by omega), h (a + 3) (by omega) (by omega)]

theorem Memory.readBytes_congr {m n : Memory} {a k : Nat} (h : ∀ x, a ≤ x → x < a + k → m.read x = n.read x) :
    m.readBytes a k = n.readBytes a k := by
  refine List.map_congr_left fun i hi => h _ (by omega) ?_
  have := List.mem_range.1 hi
  omega

/-- A run of bytes reads back as stored. -/
theorem Memory.readBytes_writeBytes (m : Memory) (a : Nat) (bs : List Byte) :
    (m.writeBytes a bs).readBytes a bs.length = bs := by
  refine List.ext_getElem (by simp [Memory.readBytes]) fun i h1 h2 => ?_
  simp only [Memory.readBytes, List.getElem_map, List.getElem_range, Memory.read_writeBytes]
  rw [if_pos (by omega), Nat.add_sub_cancel_left, List.getD_eq_getElem?_getD, List.getElem?_eq_getElem h2]
  rfl

/-- A run of bytes apart from what was stored reads as before. -/
theorem Memory.readBytes_writeBytes_off (m : Memory) (a : Nat) (bs : List Byte) (b n : Nat)
    (h : b + n ≤ a ∨ a + bs.length ≤ b) : (m.writeBytes a bs).readBytes b n = m.readBytes b n :=
  Memory.readBytes_congr fun x h1 h2 => Memory.read_writeBytes_off m a bs x (by omega)

/-! The canonical form. -/

theorem Memory.wf_nil : Memory.wf [] := by simp [Memory.wf]

theorem Memory.pairwise_ofBytes (a : Nat) (bs : List Byte) :
    (Memory.ofBytes a bs).Pairwise fun x y => x.1 < y.1 := by
  induction bs generalizing a with
  | nil => simp [Memory.ofBytes]
  | cons b bs ih =>
    simp only [Memory.ofBytes]
    split
    · exact ih _
    · exact List.pairwise_cons.2 ⟨fun c hc => by have := Memory.mem_ofBytes hc; omega, ih _⟩

/-- Storing inside Work Memory keeps the canonical form. -/
theorem Memory.wf_writeBytes {m : Memory} (h : m.wf) (a : Nat) (bs : List Byte) (ha : a + bs.length ≤ 0x10000) :
    (m.writeBytes a bs).wf := by
  obtain ⟨hp, hm⟩ := h
  have hb : ∀ c ∈ m.below a, c.1 < a := by intro c hc; simpa [Memory.below] using (List.mem_filter.1 hc).2
  have hu : ∀ c ∈ m.atOrAbove (a + bs.length), a + bs.length ≤ c.1 := by
    intro c hc; simpa [Memory.atOrAbove] using (List.mem_filter.1 hc).2
  refine ⟨?_, ?_⟩
  · unfold Memory.writeBytes
    rw [List.append_assoc]
    refine List.pairwise_append.2 ⟨hp.filter _, List.pairwise_append.2
      ⟨Memory.pairwise_ofBytes a bs, hp.filter _, ?_⟩, ?_⟩
    · intro x hx y hy; have := Memory.mem_ofBytes hx; have := hu y hy; omega
    · intro x hx y hy
      have h1 := hb x hx
      rcases List.mem_append.1 hy with h | h
      · have := Memory.mem_ofBytes h; omega
      · have := hu y h; omega
  · intro c hc
    unfold Memory.writeBytes at hc
    rcases List.mem_append.1 hc with h | h
    · rcases List.mem_append.1 h with h | h
      · exact hm c (List.mem_filter.1 h).1
      · have := Memory.mem_ofBytes h; exact ⟨this.2.2, by omega⟩
    · exact hm c (List.mem_filter.1 h).1

theorem Memory.wf_writeWord {m : Memory} (h : m.wf) (a : Nat) (w : Word) (ha : a + 4 ≤ 0x10000) :
    (m.writeWord a w).wf := Memory.wf_writeBytes h a _ ha

theorem Memory.wf_clear {m : Memory} (h : m.wf) (lo hi : Nat) : (m.clear lo hi).wf :=
  ⟨h.1.filter _, fun c hc => h.2 c (List.mem_filter.1 hc).1⟩

/-- Two memories in canonical form that read alike are equal data. -/
theorem Memory.ext_of_wf {m n : Memory} (hm : m.wf) (hn : n.wf) (h : ∀ x, m.read x = n.read x) : m = n := by
  induction m generalizing n with
  | nil =>
    cases n with
    | nil => rfl
    | cons d n =>
      have := h d.1
      simp only [Memory.read, if_true] at this
      exact absurd this.symm (hn.2 d (by simp)).1
  | cons c m ih =>
    cases n with
    | nil =>
      have := h c.1
      simp only [Memory.read, if_true] at this
      exact absurd this (hm.2 c (by simp)).1
    | cons d n =>
      obtain ⟨k, b⟩ := c
      obtain ⟨l, e⟩ := d
      have pm := List.pairwise_cons.1 hm.1
      have pn := List.pairwise_cons.1 hn.1
      have am : ∀ x ≤ k, Memory.read m x = 0 := fun x hx =>
        Memory.read_of_absent _ _ fun c hc => by have : k < c.1 := pm.1 c hc; omega
      have an : ∀ x ≤ l, Memory.read n x = 0 := fun x hx =>
        Memory.read_of_absent _ _ fun c hc => by have : l < c.1 := pn.1 c hc; omega
      have hbe : b ≠ 0 := (hm.2 (k, b) (by simp)).1
      have hee : e ≠ 0 := (hn.2 (l, e) (by simp)).1
      have hkl : k = l := by
        rcases Nat.lt_trichotomy k l with hlt | heq | hlt
        · have := h k; simp [Memory.read, Nat.ne_of_gt hlt, an k (Nat.le_of_lt hlt)] at this
          exact absurd this hbe
        · exact heq
        · have := h l; simp [Memory.read, Nat.ne_of_gt hlt, am l (Nat.le_of_lt hlt)] at this
          exact absurd this.symm hee
      subst hkl
      have hbe' : b = e := by simpa [Memory.read] using h k
      subst hbe'
      have hrest : m = n := ih ⟨pm.2, fun c hc => hm.2 c (by simp [hc])⟩ ⟨pn.2, fun c hc => hn.2 c (by simp [hc])⟩ (by
        intro x
        by_cases hx : k = x
        · subst hx; rw [am k (Nat.le_refl k), an k (Nat.le_refl k)]
        · have := h x; simpa [Memory.read, hx] using this)
      rw [hrest]

end Sys2Proof.Machine
end

