-- ==== Sys2Proof/Laws/HostPort.lean ====
section
/-! SUPPORT. Port transactions (R1): the commands a transaction is, the words each serves, and their addresses. -/

namespace Sys2Proof.Machine

@[simp] theorem transactionAddresses_length (a : BitVec 24) (n : Nat) : (transactionAddresses a n).length = n := by
  induction n generalizing a with
  | zero => rfl
  | succ n ih => simp [transactionAddresses, ih]

@[simp] theorem transactionCommands_length (a : BitVec 24) (ws : List Word) :
    (transactionCommands a ws).length = ws.length := by simp [transactionCommands]

@[simp] theorem State.receiveTransaction_nil (s : State) (a : BitVec 24) : s.receiveTransaction a [] = s := by
  simp [State.receiveTransaction, transactionCommands]

/-- A transaction's commands are its first word's and those of the rest. -/
theorem transactionCommands_cons (a : BitVec 24) (w : Word) (ws : List Word) :
    transactionCommands a (w :: ws) = hostWriteCommand a w :: transactionCommands (nextPortAddress a) ws := rfl

/-- Below the top, the next word is 4 bytes on from the aligned word. -/
theorem nextPortAddress_toNat (a : BitVec 24) (h : alignWord a.toNat + 4 < 2 ^ 24) :
    (nextPortAddress a).toNat = alignWord a.toNat + 4 := by
  unfold nextPortAddress
  rw [if_neg (by omega), BitVec.toNat_ofNat, Nat.mod_eq_of_lt h]

theorem alignWord_idem (n : Nat) : alignWord (alignWord n) = alignWord n := by unfold alignWord; omega

/-- The word that a word of a transaction falls on: the aligned start, and 4 more for each word before it. -/
theorem transactionAddresses_get (a : BitVec 24) (n i : Nat) (hi : i < n) (ht : alignWord a.toNat + 4 * i < 2 ^ 24) :
    ∃ b, (transactionAddresses a n)[i]? = some b ∧ alignWord b.toNat = alignWord a.toNat + 4 * i := by
  induction i generalizing a n with
  | zero => cases n with
    | zero => omega
    | succ n => exact ⟨a, rfl, by simp⟩
  | succ i ih => cases n with
    | zero => omega
    | succ n =>
      have hn := nextPortAddress_toNat a (by omega)
      have ha : alignWord (nextPortAddress a).toNat = alignWord a.toNat + 4 := by rw [hn]; unfold alignWord; omega
      obtain ⟨b, hb, hv⟩ := ih (nextPortAddress a) n (by omega) (by omega)
      exact ⟨b, by simpa [transactionAddresses] using hb, by omega⟩

/-- A host write is served by the aligned word it falls on alone. -/
theorem State.hostWrite_congr (s : State) (v : Word) {a b : Nat} (h : alignWord a = alignWord b) :
    s.hostWrite a v = s.hostWrite b v := by simp only [State.hostWrite, h]

/-- What an aligned address is of the word that its target names. -/
theorem portTarget_spec (n : Nat) :
    match portTarget (alignWord n) with
    | .cellWord c o => alignWord n = cellBase c + o ∧ o < 256
    | .claimWord b => alignWord n = blockBase b
    | .control => alignWord n = 0x1000C
    | .notice => alignWord n = 0x10004
    | .noticeMask => alignWord n = 0x10008
    | .statusArea => n < 0x10000
    | .planPage => n < 0x10000
    | .blockWord => n < 0x10000
    | .hostFree => n < 0x10000
    | .ident => True
    | .time => True
    | .unmapped => True := by
  have hm : alignWord n % 4 = 0 ∧ alignWord n ≤ n ∧ n < alignWord n + 4 := by unfold alignWord; omega
  generalize alignWord n = m at hm
  unfold portTarget
  by_cases h1 : m < 0x1000
  · simp only [h1, if_true, cellBase, Fin.val_ofNat]; omega
  by_cases h2 : m < 0x1800
  · simp only [h1, h2, if_true, if_false]; omega
  by_cases h3 : m < 0x2000
  · simp only [h1, h2, h3, if_true, if_false]; omega
  by_cases h4 : m < 0xC000
  · by_cases hb : (m - 0x2000) % 2560 = 0
    · simp only [h1, h2, h3, h4, hb, if_true, if_false, blockBase, Fin.val_ofNat]; omega
    · simp only [h1, h2, h3, h4, hb, if_true, if_false]; omega
  by_cases h5 : m < 0x10000
  · simp only [h1, h2, h3, h4, h5, if_true, if_false]; omega
  by_cases h6 : m < 0x10004
  · simp only [h1, h2, h3, h4, h5, h6, if_true, if_false]
  by_cases h7 : m < 0x10008
  · simp only [h1, h2, h3, h4, h5, h6, h7, if_true, if_false]; omega
  by_cases h8 : m < 0x1000C
  · simp only [h1, h2, h3, h4, h5, h6, h7, h8, if_true, if_false]; omega
  by_cases h9 : m < 0x10010
  · simp only [h1, h2, h3, h4, h5, h6, h7, h8, h9, if_true, if_false]; omega
  by_cases h10 : m < 0x10014
  · simp only [h1, h2, h3, h4, h5, h6, h7, h8, h9, h10, if_true, if_false]
  · simp only [h1, h2, h3, h4, h5, h6, h7, h8, h9, h10, if_false]

/-- The command that a word of a transaction is serves that word by its address (R1). -/
theorem exec_hostWriteCommand (a : BitVec 24) (v : Word) (s : State) :
    exec (hostWriteCommand a v) s = .next (s.hostWrite a.toNat v) := by
  have hs := portTarget_spec a.toNat
  have small : a.toNat < 0x10000 → (a.setWidth 16).toNat = a.toNat := fun h => by
    rw [BitVec.toNat_setWidth, Nat.mod_eq_of_lt h]
  have cong : ∀ b : Nat, alignWord b = alignWord a.toNat →
      (.next (s.hostWrite b v) : Result State) = .next (s.hostWrite a.toNat v) := fun b h => congrArg _ (s.hostWrite_congr v h)
  unfold hostWriteCommand
  cases ht : portTarget (alignWord a.toNat) <;> rw [ht] at hs <;> dsimp only at hs ⊢
  case control => exact cong _ hs.symm
  case notice => exact cong _ hs.symm
  case noticeMask => exact cong _ hs.symm
  case cellWord c o =>
    have low : a.toNat < 0x10000 := by unfold alignWord cellBase at hs; omega
    split
    · next h => exact cong _ (by rw [hs.1, h.1]; unfold alignWord cellBase; omega)
    · exact cong _ (by rw [small low])
  case claimWord b =>
    have low : a.toNat < 0x10000 := by unfold alignWord blockBase at hs; omega
    split
    · next h => subst h; exact cong _ (by rw [hs]; unfold alignWord blockBase; omega)
    · exact cong _ (by rw [small low])
  case ident => rfl
  case time => rfl
  case unmapped => rfl
  all_goals exact cong _ (by rw [small hs])

end Sys2Proof.Machine
end

