-- ==== Sys2Proof/Laws/State.lean ====
section
/-! SUPPORT. What each small update of the state changes and leaves: one lemma per field. -/

namespace Sys2Proof.Machine

/-! Per pipe and per surface. -/

@[simp] theorem PerPipe.get_set {α : Type} (x : PerPipe α) (p : Pipe) (a : α) : (x.set p a).get p = a := by
  cases p <;> rfl

@[simp] theorem PerPipe.get_set_other {α : Type} (x : PerPipe α) (p : Pipe) (a : α) :
    (x.set p a).get (otherPipe p) = x.get (otherPipe p) := by cases p <;> rfl

@[simp] theorem PerPipe.set_set {α : Type} (x : PerPipe α) (p : Pipe) (a b : α) :
    (x.set p a).set p b = x.set p b := by cases p <;> rfl

@[simp] theorem PerPipe.set_get {α : Type} (x : PerPipe α) (p : Pipe) : x.set p (x.get p) = x := by cases p <;> rfl

@[simp] theorem PerSurface.get_set {α : Type} (x : PerSurface α) (k : Surface) (a : α) : (x.set k a).get k = a := by
  cases k <;> rfl

@[simp] theorem PerSurface.get_set_other {α : Type} (x : PerSurface α) (k : Surface) (a : α) :
    (x.set k a).get (otherSurface k) = x.get (otherSurface k) := by cases k <;> rfl

@[simp] theorem PerSurface.set_set {α : Type} (x : PerSurface α) (k : Surface) (a b : α) :
    (x.set k a).set k b = x.set k b := by cases k <;> rfl

@[simp] theorem PerSurface.set_get {α : Type} (x : PerSurface α) (k : Surface) : x.set k (x.get k) = x := by
  cases k <;> rfl

@[simp] theorem otherPipe_otherPipe (p : Pipe) : otherPipe (otherPipe p) = p := by cases p <;> rfl

theorem otherPipe_ne (p : Pipe) : otherPipe p ≠ p := by cases p <;> decide

@[simp] theorem otherSurface_otherSurface (k : Surface) : otherSurface (otherSurface k) = k := by cases k <;> rfl

/-! The pipe and the surface that an update names, and the others. -/

@[simp] theorem State.modPipe_pipe (s : State) (p : Pipe) (g : PipeState → PipeState) :
    (s.modPipe p g).pipe p = g (s.pipe p) := by cases p <;> rfl

@[simp] theorem State.modPipe_pipe_other (s : State) (p : Pipe) (g : PipeState → PipeState) :
    (s.modPipe p g).pipe (otherPipe p) = s.pipe (otherPipe p) := by cases p <;> rfl

@[simp] theorem State.modSurf_surf (s : State) (k : Surface) (g : SurfaceState → SurfaceState) :
    (s.modSurf k g).surf k = g (s.surf k) := by cases k <;> rfl

@[simp] theorem State.modSurf_surf_other (s : State) (k : Surface) (g : SurfaceState → SurfaceState) :
    (s.modSurf k g).surf (otherSurface k) = s.surf (otherSurface k) := by cases k <;> rfl

@[simp] theorem State.modLc_pipe (s : State) (p : Pipe) (g : LinkCtl → LinkCtl) :
    (s.modLc p g).pipe p = { s.pipe p with lc := g (s.pipe p).lc } := by cases p <;> rfl

@[simp] theorem State.modPb_pipe (s : State) (p : Pipe) (g : PlanBuilder → PlanBuilder) :
    (s.modPb p g).pipe p = { s.pipe p with pb := g (s.pipe p).pb } := by cases p <;> rfl

@[simp] theorem State.modFr_pipe (s : State) (p : Pipe) (g : Runner → Runner) :
    (s.modFr p g).pipe p = { s.pipe p with fr := g (s.pipe p).fr } := by cases p <;> rfl

@[simp] theorem State.modLock_pipe (s : State) (p : Pipe) (g : LockCtl → LockCtl) :
    (s.modLock p g).pipe p = { s.pipe p with lock := g (s.pipe p).lock } := by cases p <;> rfl

@[simp] theorem State.modLc_pipe_other (s : State) (p : Pipe) (g : LinkCtl → LinkCtl) :
    (s.modLc p g).pipe (otherPipe p) = s.pipe (otherPipe p) := by cases p <;> rfl

@[simp] theorem State.modPb_pipe_other (s : State) (p : Pipe) (g : PlanBuilder → PlanBuilder) :
    (s.modPb p g).pipe (otherPipe p) = s.pipe (otherPipe p) := by cases p <;> rfl

@[simp] theorem State.modFr_pipe_other (s : State) (p : Pipe) (g : Runner → Runner) :
    (s.modFr p g).pipe (otherPipe p) = s.pipe (otherPipe p) := by cases p <;> rfl

@[simp] theorem State.modLock_pipe_other (s : State) (p : Pipe) (g : LockCtl → LockCtl) :
    (s.modLock p g).pipe (otherPipe p) = s.pipe (otherPipe p) := by cases p <;> rfl


/-! `modPipe`. -/

section

variable (s : State) (p : Pipe) (g : PipeState → PipeState) (q : Pipe) (f : Surface)

@[simp] theorem State.modPipe_pending : (s.modPipe p g).pending = s.pending := rfl
@[simp] theorem State.modPipe_time : (s.modPipe p g).time = s.time := rfl
@[simp] theorem State.modPipe_ready : (s.modPipe p g).ready = s.ready := rfl
@[simp] theorem State.modPipe_mem : (s.modPipe p g).mem = s.mem := rfl
@[simp] theorem State.modPipe_notice : (s.modPipe p g).notice = s.notice := rfl
@[simp] theorem State.modPipe_noticeMask : (s.modPipe p g).noticeMask = s.noticeMask := rfl
@[simp] theorem State.modPipe_cells : (s.modPipe p g).cells = s.cells := rfl
@[simp] theorem State.modPipe_filledMarks : (s.modPipe p g).filledMarks = s.filledMarks := rfl
@[simp] theorem State.modPipe_rqi : (s.modPipe p g).rqi = s.rqi := rfl
@[simp] theorem State.modPipe_quietSpans : (s.modPipe p g).quietSpans = s.quietSpans := rfl
@[simp] theorem State.modPipe_shiftMax : (s.modPipe p g).shiftMax = s.shiftMax := rfl
@[simp] theorem State.modPipe_ref : (s.modPipe p g).ref = s.ref := rfl
@[simp] theorem State.modPipe_bank : (s.modPipe p g).bank = s.bank := rfl
@[simp] theorem State.modPipe_surfaces : (s.modPipe p g).surfaces = s.surfaces := rfl
@[simp] theorem State.modPipe_pct : (s.modPipe p g).pct = s.pct := rfl
@[simp] theorem State.modPipe_rpw : (s.modPipe p g).rpw = s.rpw := rfl
@[simp] theorem State.modPipe_joinCounter : (s.modPipe p g).joinCounter = s.joinCounter := rfl
@[simp] theorem State.modPipe_pins : (s.modPipe p g).pins = s.pins := rfl
@[simp] theorem State.modPipe_free : (s.modPipe p g).free = s.free := rfl
@[simp] theorem State.modPipe_surf : (s.modPipe p g).surf f = s.surf f := rfl


end


/-! `modLc`. -/

section

variable (s : State) (p : Pipe) (g : LinkCtl → LinkCtl) (q : Pipe) (f : Surface)

@[simp] theorem State.modLc_pending : (s.modLc p g).pending = s.pending := rfl
@[simp] theorem State.modLc_time : (s.modLc p g).time = s.time := rfl
@[simp] theorem State.modLc_ready : (s.modLc p g).ready = s.ready := rfl
@[simp] theorem State.modLc_mem : (s.modLc p g).mem = s.mem := rfl
@[simp] theorem State.modLc_notice : (s.modLc p g).notice = s.notice := rfl
@[simp] theorem State.modLc_noticeMask : (s.modLc p g).noticeMask = s.noticeMask := rfl
@[simp] theorem State.modLc_cells : (s.modLc p g).cells = s.cells := rfl
@[simp] theorem State.modLc_filledMarks : (s.modLc p g).filledMarks = s.filledMarks := rfl
@[simp] theorem State.modLc_rqi : (s.modLc p g).rqi = s.rqi := rfl
@[simp] theorem State.modLc_quietSpans : (s.modLc p g).quietSpans = s.quietSpans := rfl
@[simp] theorem State.modLc_shiftMax : (s.modLc p g).shiftMax = s.shiftMax := rfl
@[simp] theorem State.modLc_ref : (s.modLc p g).ref = s.ref := rfl
@[simp] theorem State.modLc_bank : (s.modLc p g).bank = s.bank := rfl
@[simp] theorem State.modLc_surfaces : (s.modLc p g).surfaces = s.surfaces := rfl
@[simp] theorem State.modLc_pct : (s.modLc p g).pct = s.pct := rfl
@[simp] theorem State.modLc_rpw : (s.modLc p g).rpw = s.rpw := rfl
@[simp] theorem State.modLc_joinCounter : (s.modLc p g).joinCounter = s.joinCounter := rfl
@[simp] theorem State.modLc_pins : (s.modLc p g).pins = s.pins := rfl
@[simp] theorem State.modLc_free : (s.modLc p g).free = s.free := rfl
@[simp] theorem State.modLc_surf : (s.modLc p g).surf f = s.surf f := rfl


end


/-! `modPb`. -/

section

variable (s : State) (p : Pipe) (g : PlanBuilder → PlanBuilder) (q : Pipe) (f : Surface)

@[simp] theorem State.modPb_pending : (s.modPb p g).pending = s.pending := rfl
@[simp] theorem State.modPb_time : (s.modPb p g).time = s.time := rfl
@[simp] theorem State.modPb_ready : (s.modPb p g).ready = s.ready := rfl
@[simp] theorem State.modPb_mem : (s.modPb p g).mem = s.mem := rfl
@[simp] theorem State.modPb_notice : (s.modPb p g).notice = s.notice := rfl
@[simp] theorem State.modPb_noticeMask : (s.modPb p g).noticeMask = s.noticeMask := rfl
@[simp] theorem State.modPb_cells : (s.modPb p g).cells = s.cells := rfl
@[simp] theorem State.modPb_filledMarks : (s.modPb p g).filledMarks = s.filledMarks := rfl
@[simp] theorem State.modPb_rqi : (s.modPb p g).rqi = s.rqi := rfl
@[simp] theorem State.modPb_quietSpans : (s.modPb p g).quietSpans = s.quietSpans := rfl
@[simp] theorem State.modPb_shiftMax : (s.modPb p g).shiftMax = s.shiftMax := rfl
@[simp] theorem State.modPb_ref : (s.modPb p g).ref = s.ref := rfl
@[simp] theorem State.modPb_bank : (s.modPb p g).bank = s.bank := rfl
@[simp] theorem State.modPb_surfaces : (s.modPb p g).surfaces = s.surfaces := rfl
@[simp] theorem State.modPb_pct : (s.modPb p g).pct = s.pct := rfl
@[simp] theorem State.modPb_rpw : (s.modPb p g).rpw = s.rpw := rfl
@[simp] theorem State.modPb_joinCounter : (s.modPb p g).joinCounter = s.joinCounter := rfl
@[simp] theorem State.modPb_pins : (s.modPb p g).pins = s.pins := rfl
@[simp] theorem State.modPb_free : (s.modPb p g).free = s.free := rfl
@[simp] theorem State.modPb_surf : (s.modPb p g).surf f = s.surf f := rfl


end


/-! `modFr`. -/

section

variable (s : State) (p : Pipe) (g : Runner → Runner) (q : Pipe) (f : Surface)

@[simp] theorem State.modFr_pending : (s.modFr p g).pending = s.pending := rfl
@[simp] theorem State.modFr_time : (s.modFr p g).time = s.time := rfl
@[simp] theorem State.modFr_ready : (s.modFr p g).ready = s.ready := rfl
@[simp] theorem State.modFr_mem : (s.modFr p g).mem = s.mem := rfl
@[simp] theorem State.modFr_notice : (s.modFr p g).notice = s.notice := rfl
@[simp] theorem State.modFr_noticeMask : (s.modFr p g).noticeMask = s.noticeMask := rfl
@[simp] theorem State.modFr_cells : (s.modFr p g).cells = s.cells := rfl
@[simp] theorem State.modFr_filledMarks : (s.modFr p g).filledMarks = s.filledMarks := rfl
@[simp] theorem State.modFr_rqi : (s.modFr p g).rqi = s.rqi := rfl
@[simp] theorem State.modFr_quietSpans : (s.modFr p g).quietSpans = s.quietSpans := rfl
@[simp] theorem State.modFr_shiftMax : (s.modFr p g).shiftMax = s.shiftMax := rfl
@[simp] theorem State.modFr_ref : (s.modFr p g).ref = s.ref := rfl
@[simp] theorem State.modFr_bank : (s.modFr p g).bank = s.bank := rfl
@[simp] theorem State.modFr_surfaces : (s.modFr p g).surfaces = s.surfaces := rfl
@[simp] theorem State.modFr_pct : (s.modFr p g).pct = s.pct := rfl
@[simp] theorem State.modFr_rpw : (s.modFr p g).rpw = s.rpw := rfl
@[simp] theorem State.modFr_joinCounter : (s.modFr p g).joinCounter = s.joinCounter := rfl
@[simp] theorem State.modFr_pins : (s.modFr p g).pins = s.pins := rfl
@[simp] theorem State.modFr_free : (s.modFr p g).free = s.free := rfl
@[simp] theorem State.modFr_surf : (s.modFr p g).surf f = s.surf f := rfl


end


/-! `modLock`. -/

section

variable (s : State) (p : Pipe) (g : LockCtl → LockCtl) (q : Pipe) (f : Surface)

@[simp] theorem State.modLock_pending : (s.modLock p g).pending = s.pending := rfl
@[simp] theorem State.modLock_time : (s.modLock p g).time = s.time := rfl
@[simp] theorem State.modLock_ready : (s.modLock p g).ready = s.ready := rfl
@[simp] theorem State.modLock_mem : (s.modLock p g).mem = s.mem := rfl
@[simp] theorem State.modLock_notice : (s.modLock p g).notice = s.notice := rfl
@[simp] theorem State.modLock_noticeMask : (s.modLock p g).noticeMask = s.noticeMask := rfl
@[simp] theorem State.modLock_cells : (s.modLock p g).cells = s.cells := rfl
@[simp] theorem State.modLock_filledMarks : (s.modLock p g).filledMarks = s.filledMarks := rfl
@[simp] theorem State.modLock_rqi : (s.modLock p g).rqi = s.rqi := rfl
@[simp] theorem State.modLock_quietSpans : (s.modLock p g).quietSpans = s.quietSpans := rfl
@[simp] theorem State.modLock_shiftMax : (s.modLock p g).shiftMax = s.shiftMax := rfl
@[simp] theorem State.modLock_ref : (s.modLock p g).ref = s.ref := rfl
@[simp] theorem State.modLock_bank : (s.modLock p g).bank = s.bank := rfl
@[simp] theorem State.modLock_surfaces : (s.modLock p g).surfaces = s.surfaces := rfl
@[simp] theorem State.modLock_pct : (s.modLock p g).pct = s.pct := rfl
@[simp] theorem State.modLock_rpw : (s.modLock p g).rpw = s.rpw := rfl
@[simp] theorem State.modLock_joinCounter : (s.modLock p g).joinCounter = s.joinCounter := rfl
@[simp] theorem State.modLock_pins : (s.modLock p g).pins = s.pins := rfl
@[simp] theorem State.modLock_free : (s.modLock p g).free = s.free := rfl
@[simp] theorem State.modLock_surf : (s.modLock p g).surf f = s.surf f := rfl


end


/-! `modSurf`. -/

section

variable (s : State) (k : Surface) (g : SurfaceState → SurfaceState) (q : Pipe) (f : Surface)

@[simp] theorem State.modSurf_pending : (s.modSurf k g).pending = s.pending := rfl
@[simp] theorem State.modSurf_time : (s.modSurf k g).time = s.time := rfl
@[simp] theorem State.modSurf_ready : (s.modSurf k g).ready = s.ready := rfl
@[simp] theorem State.modSurf_mem : (s.modSurf k g).mem = s.mem := rfl
@[simp] theorem State.modSurf_notice : (s.modSurf k g).notice = s.notice := rfl
@[simp] theorem State.modSurf_noticeMask : (s.modSurf k g).noticeMask = s.noticeMask := rfl
@[simp] theorem State.modSurf_cells : (s.modSurf k g).cells = s.cells := rfl
@[simp] theorem State.modSurf_filledMarks : (s.modSurf k g).filledMarks = s.filledMarks := rfl
@[simp] theorem State.modSurf_rqi : (s.modSurf k g).rqi = s.rqi := rfl
@[simp] theorem State.modSurf_pipes : (s.modSurf k g).pipes = s.pipes := rfl
@[simp] theorem State.modSurf_quietSpans : (s.modSurf k g).quietSpans = s.quietSpans := rfl
@[simp] theorem State.modSurf_shiftMax : (s.modSurf k g).shiftMax = s.shiftMax := rfl
@[simp] theorem State.modSurf_ref : (s.modSurf k g).ref = s.ref := rfl
@[simp] theorem State.modSurf_bank : (s.modSurf k g).bank = s.bank := rfl
@[simp] theorem State.modSurf_pct : (s.modSurf k g).pct = s.pct := rfl
@[simp] theorem State.modSurf_rpw : (s.modSurf k g).rpw = s.rpw := rfl
@[simp] theorem State.modSurf_joinCounter : (s.modSurf k g).joinCounter = s.joinCounter := rfl
@[simp] theorem State.modSurf_pins : (s.modSurf k g).pins = s.pins := rfl
@[simp] theorem State.modSurf_free : (s.modSurf k g).free = s.free := rfl
@[simp] theorem State.modSurf_pipe : (s.modSurf k g).pipe q = s.pipe q := rfl


end


/-! `modRef`. -/

section

variable (s : State) (g : RefUnit → RefUnit) (q : Pipe) (f : Surface)

@[simp] theorem State.modRef_pending : (s.modRef g).pending = s.pending := rfl
@[simp] theorem State.modRef_time : (s.modRef g).time = s.time := rfl
@[simp] theorem State.modRef_ready : (s.modRef g).ready = s.ready := rfl
@[simp] theorem State.modRef_mem : (s.modRef g).mem = s.mem := rfl
@[simp] theorem State.modRef_notice : (s.modRef g).notice = s.notice := rfl
@[simp] theorem State.modRef_noticeMask : (s.modRef g).noticeMask = s.noticeMask := rfl
@[simp] theorem State.modRef_cells : (s.modRef g).cells = s.cells := rfl
@[simp] theorem State.modRef_filledMarks : (s.modRef g).filledMarks = s.filledMarks := rfl
@[simp] theorem State.modRef_rqi : (s.modRef g).rqi = s.rqi := rfl
@[simp] theorem State.modRef_pipes : (s.modRef g).pipes = s.pipes := rfl
@[simp] theorem State.modRef_quietSpans : (s.modRef g).quietSpans = s.quietSpans := rfl
@[simp] theorem State.modRef_shiftMax : (s.modRef g).shiftMax = s.shiftMax := rfl
@[simp] theorem State.modRef_ref : (s.modRef g).ref = g s.ref := rfl
@[simp] theorem State.modRef_bank : (s.modRef g).bank = s.bank := rfl
@[simp] theorem State.modRef_surfaces : (s.modRef g).surfaces = s.surfaces := rfl
@[simp] theorem State.modRef_pct : (s.modRef g).pct = s.pct := rfl
@[simp] theorem State.modRef_rpw : (s.modRef g).rpw = s.rpw := rfl
@[simp] theorem State.modRef_joinCounter : (s.modRef g).joinCounter = s.joinCounter := rfl
@[simp] theorem State.modRef_pins : (s.modRef g).pins = s.pins := rfl
@[simp] theorem State.modRef_free : (s.modRef g).free = s.free := rfl
@[simp] theorem State.modRef_pipe : (s.modRef g).pipe q = s.pipe q := rfl
@[simp] theorem State.modRef_surf : (s.modRef g).surf f = s.surf f := rfl


end


/-! `modBank`. -/

section

variable (s : State) (g : Bank → Bank) (q : Pipe) (f : Surface)

@[simp] theorem State.modBank_pending : (s.modBank g).pending = s.pending := rfl
@[simp] theorem State.modBank_time : (s.modBank g).time = s.time := rfl
@[simp] theorem State.modBank_ready : (s.modBank g).ready = s.ready := rfl
@[simp] theorem State.modBank_mem : (s.modBank g).mem = s.mem := rfl
@[simp] theorem State.modBank_notice : (s.modBank g).notice = s.notice := rfl
@[simp] theorem State.modBank_noticeMask : (s.modBank g).noticeMask = s.noticeMask := rfl
@[simp] theorem State.modBank_cells : (s.modBank g).cells = s.cells := rfl
@[simp] theorem State.modBank_filledMarks : (s.modBank g).filledMarks = s.filledMarks := rfl
@[simp] theorem State.modBank_rqi : (s.modBank g).rqi = s.rqi := rfl
@[simp] theorem State.modBank_pipes : (s.modBank g).pipes = s.pipes := rfl
@[simp] theorem State.modBank_quietSpans : (s.modBank g).quietSpans = s.quietSpans := rfl
@[simp] theorem State.modBank_shiftMax : (s.modBank g).shiftMax = s.shiftMax := rfl
@[simp] theorem State.modBank_ref : (s.modBank g).ref = s.ref := rfl
@[simp] theorem State.modBank_bank : (s.modBank g).bank = g s.bank := rfl
@[simp] theorem State.modBank_surfaces : (s.modBank g).surfaces = s.surfaces := rfl
@[simp] theorem State.modBank_pct : (s.modBank g).pct = s.pct := rfl
@[simp] theorem State.modBank_rpw : (s.modBank g).rpw = s.rpw := rfl
@[simp] theorem State.modBank_joinCounter : (s.modBank g).joinCounter = s.joinCounter := rfl
@[simp] theorem State.modBank_pins : (s.modBank g).pins = s.pins := rfl
@[simp] theorem State.modBank_free : (s.modBank g).free = s.free := rfl
@[simp] theorem State.modBank_pipe : (s.modBank g).pipe q = s.pipe q := rfl
@[simp] theorem State.modBank_surf : (s.modBank g).surf f = s.surf f := rfl


end


/-! `modRpw`. -/

section

variable (s : State) (g : ReportWriter → ReportWriter) (q : Pipe) (f : Surface)

@[simp] theorem State.modRpw_pending : (s.modRpw g).pending = s.pending := rfl
@[simp] theorem State.modRpw_time : (s.modRpw g).time = s.time := rfl
@[simp] theorem State.modRpw_ready : (s.modRpw g).ready = s.ready := rfl
@[simp] theorem State.modRpw_mem : (s.modRpw g).mem = s.mem := rfl
@[simp] theorem State.modRpw_notice : (s.modRpw g).notice = s.notice := rfl
@[simp] theorem State.modRpw_noticeMask : (s.modRpw g).noticeMask = s.noticeMask := rfl
@[simp] theorem State.modRpw_cells : (s.modRpw g).cells = s.cells := rfl
@[simp] theorem State.modRpw_filledMarks : (s.modRpw g).filledMarks = s.filledMarks := rfl
@[simp] theorem State.modRpw_rqi : (s.modRpw g).rqi = s.rqi := rfl
@[simp] theorem State.modRpw_pipes : (s.modRpw g).pipes = s.pipes := rfl
@[simp] theorem State.modRpw_quietSpans : (s.modRpw g).quietSpans = s.quietSpans := rfl
@[simp] theorem State.modRpw_shiftMax : (s.modRpw g).shiftMax = s.shiftMax := rfl
@[simp] theorem State.modRpw_ref : (s.modRpw g).ref = s.ref := rfl
@[simp] theorem State.modRpw_bank : (s.modRpw g).bank = s.bank := rfl
@[simp] theorem State.modRpw_surfaces : (s.modRpw g).surfaces = s.surfaces := rfl
@[simp] theorem State.modRpw_pct : (s.modRpw g).pct = s.pct := rfl
@[simp] theorem State.modRpw_rpw : (s.modRpw g).rpw = g s.rpw := rfl
@[simp] theorem State.modRpw_joinCounter : (s.modRpw g).joinCounter = s.joinCounter := rfl
@[simp] theorem State.modRpw_pins : (s.modRpw g).pins = s.pins := rfl
@[simp] theorem State.modRpw_free : (s.modRpw g).free = s.free := rfl
@[simp] theorem State.modRpw_pipe : (s.modRpw g).pipe q = s.pipe q := rfl
@[simp] theorem State.modRpw_surf : (s.modRpw g).surf f = s.surf f := rfl


end


/-! `noticeCell`. -/

section

variable (s : State) (q : Pipe) (f : Surface)

@[simp] theorem State.noticeCell_pending : s.noticeCell.pending = s.pending := rfl
@[simp] theorem State.noticeCell_time : s.noticeCell.time = s.time := rfl
@[simp] theorem State.noticeCell_ready : s.noticeCell.ready = s.ready := rfl
@[simp] theorem State.noticeCell_mem : s.noticeCell.mem = s.mem := rfl
@[simp] theorem State.noticeCell_notice : s.noticeCell.notice = { s.notice with cell := true } := rfl
@[simp] theorem State.noticeCell_noticeMask : s.noticeCell.noticeMask = s.noticeMask := rfl
@[simp] theorem State.noticeCell_cells : s.noticeCell.cells = s.cells := rfl
@[simp] theorem State.noticeCell_filledMarks : s.noticeCell.filledMarks = s.filledMarks := rfl
@[simp] theorem State.noticeCell_rqi : s.noticeCell.rqi = s.rqi := rfl
@[simp] theorem State.noticeCell_pipes : s.noticeCell.pipes = s.pipes := rfl
@[simp] theorem State.noticeCell_quietSpans : s.noticeCell.quietSpans = s.quietSpans := rfl
@[simp] theorem State.noticeCell_shiftMax : s.noticeCell.shiftMax = s.shiftMax := rfl
@[simp] theorem State.noticeCell_ref : s.noticeCell.ref = s.ref := rfl
@[simp] theorem State.noticeCell_bank : s.noticeCell.bank = s.bank := rfl
@[simp] theorem State.noticeCell_surfaces : s.noticeCell.surfaces = s.surfaces := rfl
@[simp] theorem State.noticeCell_pct : s.noticeCell.pct = s.pct := rfl
@[simp] theorem State.noticeCell_rpw : s.noticeCell.rpw = s.rpw := rfl
@[simp] theorem State.noticeCell_joinCounter : s.noticeCell.joinCounter = s.joinCounter := rfl
@[simp] theorem State.noticeCell_pins : s.noticeCell.pins = s.pins := rfl
@[simp] theorem State.noticeCell_free : s.noticeCell.free = s.free := rfl
@[simp] theorem State.noticeCell_pipe : s.noticeCell.pipe q = s.pipe q := rfl
@[simp] theorem State.noticeCell_surf : s.noticeCell.surf f = s.surf f := rfl


end


/-! `noticeReport`. -/

section

variable (s : State) (q : Pipe) (f : Surface)

@[simp] theorem State.noticeReport_pending : s.noticeReport.pending = s.pending := rfl
@[simp] theorem State.noticeReport_time : s.noticeReport.time = s.time := rfl
@[simp] theorem State.noticeReport_ready : s.noticeReport.ready = s.ready := rfl
@[simp] theorem State.noticeReport_mem : s.noticeReport.mem = s.mem := rfl
@[simp] theorem State.noticeReport_notice : s.noticeReport.notice = { s.notice with report := true } := rfl
@[simp] theorem State.noticeReport_noticeMask : s.noticeReport.noticeMask = s.noticeMask := rfl
@[simp] theorem State.noticeReport_cells : s.noticeReport.cells = s.cells := rfl
@[simp] theorem State.noticeReport_filledMarks : s.noticeReport.filledMarks = s.filledMarks := rfl
@[simp] theorem State.noticeReport_rqi : s.noticeReport.rqi = s.rqi := rfl
@[simp] theorem State.noticeReport_pipes : s.noticeReport.pipes = s.pipes := rfl
@[simp] theorem State.noticeReport_quietSpans : s.noticeReport.quietSpans = s.quietSpans := rfl
@[simp] theorem State.noticeReport_shiftMax : s.noticeReport.shiftMax = s.shiftMax := rfl
@[simp] theorem State.noticeReport_ref : s.noticeReport.ref = s.ref := rfl
@[simp] theorem State.noticeReport_bank : s.noticeReport.bank = s.bank := rfl
@[simp] theorem State.noticeReport_surfaces : s.noticeReport.surfaces = s.surfaces := rfl
@[simp] theorem State.noticeReport_pct : s.noticeReport.pct = s.pct := rfl
@[simp] theorem State.noticeReport_rpw : s.noticeReport.rpw = s.rpw := rfl
@[simp] theorem State.noticeReport_joinCounter : s.noticeReport.joinCounter = s.joinCounter := rfl
@[simp] theorem State.noticeReport_pins : s.noticeReport.pins = s.pins := rfl
@[simp] theorem State.noticeReport_free : s.noticeReport.free = s.free := rfl
@[simp] theorem State.noticeReport_pipe : s.noticeReport.pipe q = s.pipe q := rfl
@[simp] theorem State.noticeReport_surf : s.noticeReport.surf f = s.surf f := rfl


end


/-! `noticePipe`. -/

section

variable (s : State) (q : Pipe) (f : Surface)

@[simp] theorem State.noticePipe_pending : s.noticePipe.pending = s.pending := rfl
@[simp] theorem State.noticePipe_time : s.noticePipe.time = s.time := rfl
@[simp] theorem State.noticePipe_ready : s.noticePipe.ready = s.ready := rfl
@[simp] theorem State.noticePipe_mem : s.noticePipe.mem = s.mem := rfl
@[simp] theorem State.noticePipe_notice : s.noticePipe.notice = { s.notice with pipe := true } := rfl
@[simp] theorem State.noticePipe_noticeMask : s.noticePipe.noticeMask = s.noticeMask := rfl
@[simp] theorem State.noticePipe_cells : s.noticePipe.cells = s.cells := rfl
@[simp] theorem State.noticePipe_filledMarks : s.noticePipe.filledMarks = s.filledMarks := rfl
@[simp] theorem State.noticePipe_rqi : s.noticePipe.rqi = s.rqi := rfl
@[simp] theorem State.noticePipe_pipes : s.noticePipe.pipes = s.pipes := rfl
@[simp] theorem State.noticePipe_quietSpans : s.noticePipe.quietSpans = s.quietSpans := rfl
@[simp] theorem State.noticePipe_shiftMax : s.noticePipe.shiftMax = s.shiftMax := rfl
@[simp] theorem State.noticePipe_ref : s.noticePipe.ref = s.ref := rfl
@[simp] theorem State.noticePipe_bank : s.noticePipe.bank = s.bank := rfl
@[simp] theorem State.noticePipe_surfaces : s.noticePipe.surfaces = s.surfaces := rfl
@[simp] theorem State.noticePipe_pct : s.noticePipe.pct = s.pct := rfl
@[simp] theorem State.noticePipe_rpw : s.noticePipe.rpw = s.rpw := rfl
@[simp] theorem State.noticePipe_joinCounter : s.noticePipe.joinCounter = s.joinCounter := rfl
@[simp] theorem State.noticePipe_pins : s.noticePipe.pins = s.pins := rfl
@[simp] theorem State.noticePipe_free : s.noticePipe.free = s.free := rfl
@[simp] theorem State.noticePipe_pipe : s.noticePipe.pipe q = s.pipe q := rfl
@[simp] theorem State.noticePipe_surf : s.noticePipe.surf f = s.surf f := rfl


end


/-! `noticeFault`. -/

section

variable (s : State) (q : Pipe) (f : Surface)

@[simp] theorem State.noticeFault_pending : s.noticeFault.pending = s.pending := rfl
@[simp] theorem State.noticeFault_time : s.noticeFault.time = s.time := rfl
@[simp] theorem State.noticeFault_ready : s.noticeFault.ready = s.ready := rfl
@[simp] theorem State.noticeFault_mem : s.noticeFault.mem = s.mem := rfl
@[simp] theorem State.noticeFault_notice : s.noticeFault.notice = { s.notice with fault := true } := rfl
@[simp] theorem State.noticeFault_noticeMask : s.noticeFault.noticeMask = s.noticeMask := rfl
@[simp] theorem State.noticeFault_cells : s.noticeFault.cells = s.cells := rfl
@[simp] theorem State.noticeFault_filledMarks : s.noticeFault.filledMarks = s.filledMarks := rfl
@[simp] theorem State.noticeFault_rqi : s.noticeFault.rqi = s.rqi := rfl
@[simp] theorem State.noticeFault_pipes : s.noticeFault.pipes = s.pipes := rfl
@[simp] theorem State.noticeFault_quietSpans : s.noticeFault.quietSpans = s.quietSpans := rfl
@[simp] theorem State.noticeFault_shiftMax : s.noticeFault.shiftMax = s.shiftMax := rfl
@[simp] theorem State.noticeFault_ref : s.noticeFault.ref = s.ref := rfl
@[simp] theorem State.noticeFault_bank : s.noticeFault.bank = s.bank := rfl
@[simp] theorem State.noticeFault_surfaces : s.noticeFault.surfaces = s.surfaces := rfl
@[simp] theorem State.noticeFault_pct : s.noticeFault.pct = s.pct := rfl
@[simp] theorem State.noticeFault_rpw : s.noticeFault.rpw = s.rpw := rfl
@[simp] theorem State.noticeFault_joinCounter : s.noticeFault.joinCounter = s.joinCounter := rfl
@[simp] theorem State.noticeFault_pins : s.noticeFault.pins = s.pins := rfl
@[simp] theorem State.noticeFault_free : s.noticeFault.free = s.free := rfl
@[simp] theorem State.noticeFault_pipe : s.noticeFault.pipe q = s.pipe q := rfl
@[simp] theorem State.noticeFault_surf : s.noticeFault.surf f = s.surf f := rfl


end


/-! `pulsePins`. -/

section

variable (s : State) (src : PinSource) (q : Pipe) (f : Surface)

@[simp] theorem State.pulsePins_pending : (s.pulsePins src).pending = s.pending := rfl
@[simp] theorem State.pulsePins_time : (s.pulsePins src).time = s.time := rfl
@[simp] theorem State.pulsePins_ready : (s.pulsePins src).ready = s.ready := rfl
@[simp] theorem State.pulsePins_mem : (s.pulsePins src).mem = s.mem := rfl
@[simp] theorem State.pulsePins_notice : (s.pulsePins src).notice = s.notice := rfl
@[simp] theorem State.pulsePins_noticeMask : (s.pulsePins src).noticeMask = s.noticeMask := rfl
@[simp] theorem State.pulsePins_cells : (s.pulsePins src).cells = s.cells := rfl
@[simp] theorem State.pulsePins_filledMarks : (s.pulsePins src).filledMarks = s.filledMarks := rfl
@[simp] theorem State.pulsePins_rqi : (s.pulsePins src).rqi = s.rqi := rfl
@[simp] theorem State.pulsePins_pipes : (s.pulsePins src).pipes = s.pipes := rfl
@[simp] theorem State.pulsePins_quietSpans : (s.pulsePins src).quietSpans = s.quietSpans := rfl
@[simp] theorem State.pulsePins_shiftMax : (s.pulsePins src).shiftMax = s.shiftMax := rfl
@[simp] theorem State.pulsePins_ref : (s.pulsePins src).ref = s.ref := rfl
@[simp] theorem State.pulsePins_bank : (s.pulsePins src).bank = s.bank := rfl
@[simp] theorem State.pulsePins_surfaces : (s.pulsePins src).surfaces = s.surfaces := rfl
@[simp] theorem State.pulsePins_pct : (s.pulsePins src).pct = s.pct := rfl
@[simp] theorem State.pulsePins_rpw : (s.pulsePins src).rpw = s.rpw := rfl
@[simp] theorem State.pulsePins_joinCounter : (s.pulsePins src).joinCounter = s.joinCounter := rfl
@[simp] theorem State.pulsePins_free : (s.pulsePins src).free = s.free := rfl
@[simp] theorem State.pulsePins_pipe : (s.pulsePins src).pipe q = s.pipe q := rfl
@[simp] theorem State.pulsePins_surf : (s.pulsePins src).surf f = s.surf f := rfl


end


end Sys2Proof.Machine
end

