-- ==== Sys2Proof/Laws/Records.lean ====
section
/-! SUPPORT. What `publish` does: it rewrites the status records whose fields an event changed, once each, and changes
nothing else. -/

namespace Sys2Proof.Machine

@[simp] theorem padTo_length (n : Nat) (bs : List Byte) : (padTo n bs).length = n := by
  simp [padTo, zeroBytes]

@[simp] theorem State.pipeRecord_length (s : State) (p : Pipe) : (s.pipeRecord p).length = 512 := padTo_length _ _

@[simp] theorem State.surfaceRecord_length (s : State) (k : Surface) : (s.surfaceRecord k).length = 128 :=
  padTo_length _ _

@[simp] theorem Bank.bytes_length (b : Bank) : b.bytes.length = 64 := padTo_length _ _

@[simp] theorem RefUnit.bytes_length (r : RefUnit) : r.bytes.length = 64 := padTo_length _ _

@[simp] theorem Plan.bytes_length (x : Plan) : x.bytes.length = 1024 := padTo_length _ _

/-! One rewriting. -/

@[simp] theorem State.rewritePipe_bare (s : State) (p : Pipe) : (s.rewritePipe p).bare = s.bare := by cases p <;> rfl
@[simp] theorem State.rewriteSurface_bare (s : State) (k : Surface) : (s.rewriteSurface k).bare = s.bare := by
  cases k <;> rfl
@[simp] theorem State.rewriteBank_bare (s : State) : s.rewriteBank.bare = s.bare := rfl
@[simp] theorem State.rewriteRef_bare (s : State) : s.rewriteRef.bare = s.bare := rfl

@[simp] theorem State.rewritePipe_pipeView (s : State) (p q : Pipe) : (s.rewritePipe p).pipeView q = s.pipeView q := by
  cases p <;> cases q <;> rfl
@[simp] theorem State.rewriteSurface_pipeView (s : State) (k : Surface) (q : Pipe) :
    (s.rewriteSurface k).pipeView q = s.pipeView q := by cases k <;> cases q <;> rfl
@[simp] theorem State.rewriteBank_pipeView (s : State) (q : Pipe) : s.rewriteBank.pipeView q = s.pipeView q := rfl
@[simp] theorem State.rewriteRef_pipeView (s : State) (q : Pipe) : s.rewriteRef.pipeView q = s.pipeView q := rfl

@[simp] theorem State.rewritePipe_surfaceView (s : State) (p : Pipe) (f : Surface) :
    (s.rewritePipe p).surfaceView f = s.surfaceView f := by cases p <;> cases f <;> rfl
@[simp] theorem State.rewriteSurface_surfaceView (s : State) (k f : Surface) :
    (s.rewriteSurface k).surfaceView f = s.surfaceView f := by cases k <;> cases f <;> rfl
@[simp] theorem State.rewriteBank_surfaceView (s : State) (f : Surface) : s.rewriteBank.surfaceView f = s.surfaceView f :=
  rfl
@[simp] theorem State.rewriteRef_surfaceView (s : State) (f : Surface) : s.rewriteRef.surfaceView f = s.surfaceView f :=
  rfl

@[simp] theorem State.rewritePipe_bank (s : State) (p : Pipe) : (s.rewritePipe p).bank = s.bank := rfl
@[simp] theorem State.rewriteSurface_bank (s : State) (k : Surface) : (s.rewriteSurface k).bank = s.bank := rfl
@[simp] theorem State.rewriteRef_bank (s : State) : s.rewriteRef.bank = s.bank := rfl
@[simp] theorem State.rewritePipe_ref (s : State) (p : Pipe) : (s.rewritePipe p).ref = s.ref := rfl
@[simp] theorem State.rewriteSurface_ref (s : State) (k : Surface) : (s.rewriteSurface k).ref = s.ref := rfl
@[simp] theorem State.rewriteBank_ref (s : State) : s.rewriteBank.ref = s.ref := rfl

theorem State.rewritePipe_pipe_version (s : State) (p q : Pipe) :
    ((s.rewritePipe p).pipe q).version = if q = p then (s.pipe q).version + 1 else (s.pipe q).version := by
  cases p <;> cases q <;> rfl
@[simp] theorem State.rewritePipe_surf (s : State) (p : Pipe) (f : Surface) : (s.rewritePipe p).surf f = s.surf f := rfl
@[simp] theorem State.rewriteSurface_pipe (s : State) (k : Surface) (q : Pipe) : (s.rewriteSurface k).pipe q = s.pipe q :=
  rfl
theorem State.rewriteSurface_surf_version (s : State) (k f : Surface) :
    ((s.rewriteSurface k).surf f).version = if f = k then (s.surf f).version + 1 else (s.surf f).version := by
  cases k <;> cases f <;> rfl
@[simp] theorem State.rewriteBank_pipe (s : State) (q : Pipe) : s.rewriteBank.pipe q = s.pipe q := rfl
@[simp] theorem State.rewriteBank_surf (s : State) (f : Surface) : s.rewriteBank.surf f = s.surf f := rfl
@[simp] theorem State.rewriteRef_pipe (s : State) (q : Pipe) : s.rewriteRef.pipe q = s.pipe q := rfl
@[simp] theorem State.rewriteRef_surf (s : State) (f : Surface) : s.rewriteRef.surf f = s.surf f := rfl

theorem State.rewritePipe_read (s : State) (p : Pipe) (a : Nat) (h : ¬ inRange a (pipeRecordBase p) 512) :
    (s.rewritePipe p).mem.read a = s.mem.read a :=
  Memory.read_writeBytes_off _ _ _ _ (by rw [State.pipeRecord_length]; exact h)
theorem State.rewriteSurface_read (s : State) (k : Surface) (a : Nat) (h : ¬ inRange a (surfaceRecordBase k) 128) :
    (s.rewriteSurface k).mem.read a = s.mem.read a :=
  Memory.read_writeBytes_off _ _ _ _ (by rw [State.surfaceRecord_length]; exact h)
theorem State.rewriteBank_read (s : State) (a : Nat) (h : ¬ inRange a bankRecordBase 64) :
    s.rewriteBank.mem.read a = s.mem.read a :=
  Memory.read_writeBytes_off _ _ _ _ (by rw [Bank.bytes_length]; exact h)
theorem State.rewriteRef_read (s : State) (a : Nat) (h : ¬ inRange a refRecordBase 64) :
    s.rewriteRef.mem.read a = s.mem.read a :=
  Memory.read_writeBytes_off _ _ _ _ (by rw [RefUnit.bytes_length]; exact h)

/-! One record of `publish`. -/

section

variable (s t : State) (p q : Pipe) (k f : Surface)

@[simp] theorem publishPipe_bare : (publishPipe s p t).bare = t.bare := by unfold publishPipe; split <;> simp
@[simp] theorem publishSurface_bare : (publishSurface s k t).bare = t.bare := by unfold publishSurface; split <;> simp
@[simp] theorem publishBank_bare : (publishBank s t).bare = t.bare := by unfold publishBank; split <;> simp
@[simp] theorem publishRef_bare : (publishRef s t).bare = t.bare := by unfold publishRef; split <;> simp

@[simp] theorem publishPipe_pipeView : (publishPipe s p t).pipeView q = t.pipeView q := by
  unfold publishPipe; split <;> simp
@[simp] theorem publishSurface_pipeView : (publishSurface s k t).pipeView q = t.pipeView q := by
  unfold publishSurface; split <;> simp
@[simp] theorem publishBank_pipeView : (publishBank s t).pipeView q = t.pipeView q := by
  unfold publishBank; split <;> simp
@[simp] theorem publishRef_pipeView : (publishRef s t).pipeView q = t.pipeView q := by unfold publishRef; split <;> simp

@[simp] theorem publishPipe_surfaceView : (publishPipe s p t).surfaceView f = t.surfaceView f := by
  unfold publishPipe; split <;> simp
@[simp] theorem publishSurface_surfaceView : (publishSurface s k t).surfaceView f = t.surfaceView f := by
  unfold publishSurface; split <;> simp
@[simp] theorem publishBank_surfaceView : (publishBank s t).surfaceView f = t.surfaceView f := by
  unfold publishBank; split <;> simp
@[simp] theorem publishRef_surfaceView : (publishRef s t).surfaceView f = t.surfaceView f := by
  unfold publishRef; split <;> simp

@[simp] theorem publishPipe_bank : (publishPipe s p t).bank = t.bank := by unfold publishPipe; split <;> rfl
@[simp] theorem publishSurface_bank : (publishSurface s k t).bank = t.bank := by unfold publishSurface; split <;> rfl
@[simp] theorem publishRef_bank : (publishRef s t).bank = t.bank := by unfold publishRef; split <;> rfl
@[simp] theorem publishPipe_ref : (publishPipe s p t).ref = t.ref := by unfold publishPipe; split <;> rfl
@[simp] theorem publishSurface_ref : (publishSurface s k t).ref = t.ref := by unfold publishSurface; split <;> rfl
@[simp] theorem publishBank_ref : (publishBank s t).ref = t.ref := by unfold publishBank; split <;> rfl

theorem publishBank_bank : (publishBank s t).bank =
    if t.bank = s.bank then t.bank else { t.bank with version := t.bank.version + 1 } := by
  unfold publishBank; split <;> rfl

@[simp] theorem publishRef_mirrored : (publishRef s t).ref.mirrored = t.ref.mirrored := by
  unfold publishRef; split <;> rfl

theorem publishPipe_pipe_version : ((publishPipe s p t).pipe q).version =
    if q = p ∧ t.pipeView p ≠ s.pipeView p then (t.pipe q).version + 1 else (t.pipe q).version := by
  unfold publishPipe
  split <;> simp [State.rewritePipe_pipe_version, *]
@[simp] theorem publishPipe_surf : (publishPipe s p t).surf f = t.surf f := by unfold publishPipe; split <;> simp
@[simp] theorem publishSurface_pipe : (publishSurface s k t).pipe q = t.pipe q := by
  unfold publishSurface; split <;> simp
theorem publishSurface_surf_version : ((publishSurface s k t).surf f).version =
    if f = k ∧ t.surfaceView k ≠ s.surfaceView k then (t.surf f).version + 1 else (t.surf f).version := by
  unfold publishSurface
  split <;> simp [State.rewriteSurface_surf_version, *]
@[simp] theorem publishBank_pipe : (publishBank s t).pipe q = t.pipe q := by unfold publishBank; split <;> simp
@[simp] theorem publishBank_surf : (publishBank s t).surf f = t.surf f := by unfold publishBank; split <;> simp
@[simp] theorem publishRef_pipe : (publishRef s t).pipe q = t.pipe q := by unfold publishRef; split <;> simp
@[simp] theorem publishRef_surf : (publishRef s t).surf f = t.surf f := by unfold publishRef; split <;> simp

theorem publishRef_ref_version : (publishRef s t).ref.version =
    if t.ref.mirrored = s.ref.mirrored then t.ref.version else t.ref.version + 1 := by
  unfold publishRef; split <;> rfl

theorem publishPipe_read (a : Nat) (h : inRange a (pipeRecordBase p) 512 → t.pipeView p = s.pipeView p) :
    (publishPipe s p t).mem.read a = t.mem.read a := by
  unfold publishPipe; split
  · rfl
  · exact State.rewritePipe_read t p a fun hin => absurd (h hin) ‹_›

theorem publishSurface_read (a : Nat) (h : inRange a (surfaceRecordBase k) 128 → t.surfaceView k = s.surfaceView k) :
    (publishSurface s k t).mem.read a = t.mem.read a := by
  unfold publishSurface; split
  · rfl
  · exact State.rewriteSurface_read t k a fun hin => absurd (h hin) ‹_›

theorem publishBank_read (a : Nat) (h : inRange a bankRecordBase 64 → t.bank = s.bank) :
    (publishBank s t).mem.read a = t.mem.read a := by
  unfold publishBank; split
  · rfl
  · exact State.rewriteBank_read t a fun hin => absurd (h hin) ‹_›

theorem publishRef_read (a : Nat) (h : inRange a refRecordBase 64 → t.ref.mirrored = s.ref.mirrored) :
    (publishRef s t).mem.read a = t.mem.read a := by
  unfold publishRef; split
  · rfl
  · exact State.rewriteRef_read t a fun hin => absurd (h hin) ‹_›

end

/-! The whole of `publish`. -/

@[simp] theorem publish_bare (s t : State) : (publish s t).bare = t.bare := by simp [publish]

@[simp] theorem publish_pipeView (s t : State) (q : Pipe) : (publish s t).pipeView q = t.pipeView q := by
  simp [publish]

@[simp] theorem publish_surfaceView (s t : State) (f : Surface) : (publish s t).surfaceView f = t.surfaceView f := by
  simp [publish]

@[simp] theorem publish_ref_mirrored (s t : State) : (publish s t).ref.mirrored = t.ref.mirrored := by simp [publish]

theorem publish_bank (s t : State) :
    (publish s t).bank = if t.bank = s.bank then t.bank else { t.bank with version := t.bank.version + 1 } := by
  simp [publish, publishBank_bank]

/-- An event that changes no record's fields publishes nothing. -/
theorem publish_of_same (s t : State) (h0 : t.pipeView .p0 = s.pipeView .p0) (h1 : t.pipeView .p1 = s.pipeView .p1)
    (k0 : t.surfaceView .s0 = s.surfaceView .s0) (k1 : t.surfaceView .s1 = s.surfaceView .s1) (hb : t.bank = s.bank)
    (hr : t.ref.mirrored = s.ref.mirrored) : publish s t = t := by
  simp [publish, publishPipe, publishSurface, publishBank, publishRef, h0, h1, k0, k1, hb, hr]

@[simp] theorem publish_self (s : State) : publish s s = s := publish_of_same s s rfl rfl rfl rfl rfl rfl

/-- The version of a pipe record after an event: one more where its fields changed. -/
theorem publish_pipe_version (s t : State) (p : Pipe) : ((publish s t).pipe p).version =
    if t.pipeView p = s.pipeView p then (t.pipe p).version else (t.pipe p).version + 1 := by
  cases p <;> simp [publish, publishPipe_pipe_version]

/-- The version of a surface record after an event: one more where its fields changed. -/
theorem publish_surf_version (s t : State) (k : Surface) : ((publish s t).surf k).version =
    if t.surfaceView k = s.surfaceView k then (t.surf k).version else (t.surf k).version + 1 := by
  cases k <;> simp [publish, publishSurface_surf_version]

/-- The version of the reference record after an event: one more where its fields changed. -/
theorem publish_ref_version (s t : State) : (publish s t).ref.version =
    if t.ref.mirrored = s.ref.mirrored then t.ref.version else t.ref.version + 1 := by
  simp [publish, publishRef_ref_version]

/-- Two states with the same version words. -/
def SameVersions (s t : State) : Prop :=
  (∀ p, (t.pipe p).version = (s.pipe p).version) ∧ (∀ k, (t.surf k).version = (s.surf k).version) ∧
  t.bank.version = s.bank.version ∧ t.ref.version = s.ref.version

/-- Outside the records that are rewritten, an event's Work Memory is what its rules made it. -/
theorem publish_read (s t : State) (hv : SameVersions s t) (a : Nat) (h : ¬ s.recordChanged (publish s t) a) :
    (publish s t).mem.read a = t.mem.read a := by
  obtain ⟨vp, vk, vb, vr⟩ := hv
  have up : ∀ x : Word, x ≠ x + 1 := fun x => by bv_omega
  simp only [State.recordChanged, publish_pipe_version, publish_surf_version, publish_ref_version, publish_bank,
    not_or, not_exists, not_and, not_not] at h
  obtain ⟨hp, hk, hb, hr⟩ := h
  have hp' : ∀ p, inRange a (pipeRecordBase p) 512 → t.pipeView p = s.pipeView p := fun p hin => by
    have := hp p hin
    split at this
    · assumption
    · exact absurd (this.trans (congrArg (· + 1) (vp p))) (up _)
  have hk' : ∀ k, inRange a (surfaceRecordBase k) 128 → t.surfaceView k = s.surfaceView k := fun k hin => by
    have := hk k hin
    split at this
    · assumption
    · exact absurd (this.trans (congrArg (· + 1) (vk k))) (up _)
  have hb' : inRange a bankRecordBase 64 → t.bank = s.bank := fun hin => by
    have := hb hin
    split at this
    · assumption
    · exact absurd (this.trans (congrArg (· + 1) vb)) (up _)
  have hr' : inRange a refRecordBase 64 → t.ref.mirrored = s.ref.mirrored := fun hin => by
    have := hr hin
    split at this
    · assumption
    · exact absurd (this.trans (congrArg (· + 1) vr)) (up _)
  unfold publish
  rw [publishRef_read _ _ _ (by simpa using hr'), publishBank_read _ _ _ (by simpa using hb'),
    publishSurface_read _ _ _ _ (by simpa using hk' .s1), publishSurface_read _ _ _ _ (by simpa using hk' .s0),
    publishPipe_read _ _ _ _ (by simpa using hp' .p1), publishPipe_read _ _ _ _ (by simpa using hp' .p0)]

/-- A published event becomes `u` where its rules give `u`. -/
theorem becomes_of_publish {c : Instr} {s v u : State} (he : exec c s = .next (publish s v)) (hb : v.bare = u.bare)
    (hm : ∀ a, v.mem.read a = u.mem.read a) (hv : SameVersions s v) : Becomes c s u :=
  ⟨_, he, by simpa using hb, fun a ha => (publish_read s v hv a ha).trans (hm a)⟩

/-- A command that publishes nothing. -/
theorem becomes_of_next {c : Instr} {s v u : State} (he : exec c s = .next v) (hb : v.bare = u.bare)
    (hm : ∀ a, v.mem.read a = u.mem.read a) : Becomes c s u := ⟨v, he, hb, fun a _ => hm a⟩

/-! Records rewritten though their fields end as they began (R20, R149, R162). -/

@[simp] theorem State.pipeRewritten_bare (t s : State) (p : Pipe) : (t.pipeRewritten s p).bare = t.bare := by
  unfold State.pipeRewritten; split <;> simp
@[simp] theorem State.surfaceRewritten_bare (t s : State) (k : Surface) : (t.surfaceRewritten s k).bare = t.bare := by
  unfold State.surfaceRewritten; split <;> simp
@[simp] theorem State.surfaceRewritten_pipe (t s : State) (k : Surface) (q : Pipe) :
    (t.surfaceRewritten s k).pipe q = t.pipe q := by unfold State.surfaceRewritten; split <;> simp
@[simp] theorem State.surfaceRewritten_bank (t s : State) (k : Surface) : (t.surfaceRewritten s k).bank = t.bank := by
  unfold State.surfaceRewritten; split <;> simp
@[simp] theorem State.surfaceRewritten_surfaceView (t s : State) (k f : Surface) :
    (t.surfaceRewritten s k).surfaceView f = t.surfaceView f := by unfold State.surfaceRewritten; split <;> simp

/-- The record it names is one version on, however the event ends; the other surface's version is as it was. -/
theorem State.surfaceRewritten_version (t s : State) (k f : Surface) : ((t.surfaceRewritten s k).surf f).version =
    if f = k ∧ (t.surf k).version = (s.surf k).version then (t.surf f).version + 1 else (t.surf f).version := by
  unfold State.surfaceRewritten
  split <;> simp [State.rewriteSurface_surf_version, *]

/-- It writes no byte outside that surface's record. -/
theorem State.surfaceRewritten_read (t s : State) (k : Surface) (a : Nat) (h : ¬ inRange a (surfaceRecordBase k) 128) :
    (t.surfaceRewritten s k).mem.read a = t.mem.read a := by
  unfold State.surfaceRewritten
  split
  · exact State.rewriteSurface_read t k a h
  · rfl

/-- It writes no byte outside that pipe's record. -/
theorem State.pipeRewritten_read (t s : State) (p : Pipe) (a : Nat) (h : ¬ inRange a (pipeRecordBase p) 512) :
    (t.pipeRewritten s p).mem.read a = t.mem.read a := by
  unfold State.pipeRewritten
  split
  · exact State.rewritePipe_read t p a h
  · rfl

/-! Initialisation (R4). -/

/-- The status area as initialisation writes it shows every record. -/
theorem State.writeStatusArea_records (s : State) :
    (∀ p, s.writeStatusArea.mem.readBytes (pipeRecordBase p) 512 = s.pipeRecord p) ∧
    (∀ k, s.writeStatusArea.mem.readBytes (surfaceRecordBase k) 128 = s.surfaceRecord k) ∧
    s.writeStatusArea.mem.readBytes bankRecordBase 64 = s.bank.bytes ∧
    s.writeStatusArea.mem.readBytes refRecordBase 64 = s.ref.bytes := by
  have self := fun (m : Memory) (a n : Nat) (bs : List Byte) (h : bs.length = n) =>
    h ▸ Memory.readBytes_writeBytes m a bs
  refine ⟨fun p => ?_, fun k => ?_, ?_, ?_⟩
  · cases p <;> simp only [State.writeStatusArea, pipeRecordBase, surfaceRecordBase, bankRecordBase, refRecordBase] <;>
      simp (disch := simp) only [Memory.readBytes_writeBytes_off] <;> exact self _ _ _ _ (State.pipeRecord_length _ _)
  · cases k <;> simp only [State.writeStatusArea, pipeRecordBase, surfaceRecordBase, bankRecordBase, refRecordBase] <;>
      simp (disch := simp) only [Memory.readBytes_writeBytes_off] <;> exact self _ _ _ _ (State.surfaceRecord_length _ _)
  · simp only [State.writeStatusArea, bankRecordBase, refRecordBase]
    rw [Memory.readBytes_writeBytes_off _ _ _ _ _ (by simp)]
    exact self _ _ _ _ (Bank.bytes_length _)
  · exact self _ _ _ _ (RefUnit.bytes_length _)

end Sys2Proof.Machine
end

