-- ==== Sys2Proof/Laws/Ops.lean ====
section
/-! SUPPORT. What the shared operations do, once for each: sending, notices, faults, handing over, the writer's check,
the freed bank, and the stores that keep Work Memory's form. -/

namespace Sys2Proof.Machine

/-! Sending a message (R19). -/

/-- The sending time is 50 TU for each byte. -/
theorem TxMessage.sendTU_eq (m : TxMessage) : byteTU * m.bytes.length = m.sendTU := by cases m <;> rfl

/-- A message handed to a link changes that link alone, by `LinkCtl.plus`. -/
theorem State.sendMessage_eq (s : State) (p : Pipe) (m : TxMessage) (supervised : Bool) :
    s.sendMessage p m supervised =
      s.withPipe p { s.pipe p with lc := (s.pipe p).lc.plus s.time m supervised } := by
  unfold State.sendMessage LinkCtl.plus
  cases h : (s.pipe p).lc.sending <;>
    simp only [State.beginSending, State.modLc, State.modPipe, State.withPipe, State.after, TxMessage.sendTU_eq, h]

/-! Link and lock states (R20, R101). -/

/-- A changed link state sets NOTICE.PIPE, and nothing else changes. -/
theorem State.setLink_eq (s : State) (p : Pipe) (x : LinkState) :
    s.setLink p x = { s.withPipe p { s.pipe p with lc := { (s.pipe p).lc with state := x } } with
      notice := { s.notice with pipe := s.notice.pipe || decide ((s.pipe p).lc.state ≠ x) } } := by
  unfold State.setLink
  by_cases h : (s.pipe p).lc.state = x <;>
    simp [h, State.modLc, State.modPipe, State.withPipe, State.noticePipe]

/-- A changed lock state sets NOTICE.PIPE, and nothing else changes. -/
theorem State.setLock_eq (s : State) (p : Pipe) (g : LockCtl → LockCtl) :
    s.setLock p g = { s.withPipe p { s.pipe p with lock := g (s.pipe p).lock } with
      notice := { s.notice with
        pipe := s.notice.pipe || decide ((g (s.pipe p).lock).state ≠ (s.pipe p).lock.state) } } := by
  have hl : ((s.modLock p g).pipe p).lock = g (s.pipe p).lock := by simp [State.modLock]
  simp only [State.setLock, hl]
  by_cases h : (g (s.pipe p).lock).state = (s.pipe p).lock.state <;>
    simp [h, State.modLock, State.modPipe, State.withPipe, State.noticePipe]

/-! Faults (R177). -/

theorem PipeFaults.put_of_get (x : PipeFaults) (f : PipeFault) (h : x.get f = true) : x.put f = x := by
  cases f <;> cases x <;> simp_all [PipeFaults.get, PipeFaults.put]

theorem SurfaceFaults.put_of_get (x : SurfaceFaults) (f : SurfaceFault) (h : x.get f = true) : x.put f = x := by
  cases f <;> cases x <;> simp_all [SurfaceFaults.get, SurfaceFaults.put]

/-- A fault of a pipe sets its flag, and NOTICE.FAULT where the flag was clear. -/
theorem State.raisePipeFault_eq (s : State) (p : Pipe) (f : PipeFault) :
    s.raisePipeFault p f = { s.withPipe p { s.pipe p with faults := (s.pipe p).faults.put f } with
      notice := { s.notice with fault := s.notice.fault || !(s.pipe p).faults.get f } } := by
  unfold State.raisePipeFault
  by_cases h : (s.pipe p).faults.get f = true
  · rw [if_pos h, PipeFaults.put_of_get _ _ h, h, Bool.not_true, Bool.or_false]; cases p <;> rfl
  · simp [h, State.modPipe, State.withPipe, State.noticeFault]

/-- A fault of a surface sets its flag, and NOTICE.FAULT where the flag was clear. -/
theorem State.raiseSurfaceFault_eq (s : State) (k : Surface) (f : SurfaceFault) :
    s.raiseSurfaceFault k f = { s.withSurf k { s.surf k with faults := (s.surf k).faults.put f } with
      notice := { s.notice with fault := s.notice.fault || !(s.surf k).faults.get f } } := by
  unfold State.raiseSurfaceFault
  by_cases h : (s.surf k).faults.get f = true
  · rw [if_pos h, SurfaceFaults.put_of_get _ _ h, h, Bool.not_true, Bool.or_false]; cases k <;> rfl
  · simp [h, State.modSurf, State.withSurf, State.noticeFault]

/-! Handing completions over (R9, R12). -/

/-- An idle engine serves the oldest completion, and nothing else changes. -/
theorem State.serveCompletions_eq (s : State) : s.serveCompletions = { s with rqi := s.rqi.served s.time } := by
  unfold State.serveCompletions Rqi.served
  split <;> simp_all

theorem State.handOverAll_eq (s : State) (cs : List Completion) :
    s.handOverAll cs =
      { s with rqi := Rqi.served { s.rqi with completions := s.rqi.completions ++ cs } s.time } := by
  simp [State.handOverAll, State.serveCompletions_eq]

/-- Whatever the number, the order chosen is an order of the list. -/
theorem permuteBy_perm {α : Type} (fuel n : Nat) (l : List α) : (permuteBy fuel n l).Perm l := by
  induction fuel generalizing n l with
  | zero => exact .refl _
  | succ fuel ih =>
    cases l with
    | nil => exact .refl _
    | cons a l =>
      simp only [permuteBy]
      cases h : (a :: l)[n % (l.length + 1)]? with
      | none => exact .refl _
      | some x =>
        obtain ⟨hi, rfl⟩ := List.getElem?_eq_some_iff.1 h
        exact ((ih _ _).cons _).trans (List.getElem_cons_eraseIdx_perm hi)

theorem flatten_filter_nonempty {α : Type} (gs : List (List α)) :
    (gs.filter fun g => !g.isEmpty).flatten = gs.flatten := by
  induction gs with
  | nil => rfl
  | cons g gs ih => cases g <;> simp [List.filter, ih]

/-- Some order of the lists that are not empty is, flattened, some order of all of them. -/
theorem perm_of_nonempty {α : Type} (gs o : List (List α)) (h : o.Perm (gs.filter fun g => !g.isEmpty)) :
    ∃ o' : List (List α), o'.Perm gs ∧ o'.flatten = o.flatten := by
  refine ⟨o ++ gs.filter (fun g => g.isEmpty), ?_, ?_⟩
  · refine (h.append_right _).trans ?_
    have := List.filter_append_perm (fun g : List α => !g.isEmpty) gs
    simpa using this
  · have : (gs.filter fun g => g.isEmpty).flatten = [] := by
      simp [List.flatten_eq_nil_iff, List.mem_filter]
    simp [this]

/-- Handing over changes the Request Intake, and the count of free values, alone. -/
theorem State.handOverGroups_spec (s : State) (gs : List (List Completion)) :
    ∃ q n, s.handOverGroups gs = { s with rqi := q, free := n } ∧ HandedOver s.rqi s.time gs q := by
  unfold State.handOverGroups HandedOver
  rw [← flatten_filter_nonempty gs]
  split
  next h => exact ⟨s.rqi, s.free, rfl, by simp [h]⟩
  next g h =>
    have hg : g ≠ [] := by
      have : g ∈ gs.filter fun g => !g.isEmpty := by rw [h]; simp
      rintro rfl
      simp [List.mem_filter] at this
    refine ⟨_, s.free, by rw [State.handOverAll_eq], ?_⟩
    rw [h, if_neg (by simpa using hg)]
    obtain ⟨o, ho, he⟩ := perm_of_nonempty gs [g] (by rw [h])
    exact ⟨o, ho, by rw [he]; simp⟩
  next hs h0 h1 =>
    refine ⟨_, s.free + 1, by rw [State.handOverAll_eq]; rfl, ?_⟩
    have hne : (gs.filter fun g => !g.isEmpty).flatten ≠ [] := by
      intro hf
      refine h0 (List.eq_nil_iff_forall_not_mem.2 fun g hg => ?_)
      have h2 := List.flatten_eq_nil_iff.1 hf g hg
      rw [h2] at hg
      simp [List.mem_filter] at hg
    rw [if_neg hne]
    obtain ⟨o, ho, he⟩ := perm_of_nonempty gs _ (permuteBy_perm (gs.filter fun g => !g.isEmpty).length
      (Config.handoverOrder s.free) (gs.filter fun g => !g.isEmpty))
    exact ⟨o, ho, by rw [he]; rfl⟩

/-! The bank (R141). -/

/-- The request the freed bank grants. -/
theorem Bank.nextWaiting_eq (b : Bank) : b.nextWaiting = b.chosen := by
  unfold Bank.nextWaiting Bank.chosen
  cases b.waiting.s0 <;> cases b.waiting.s1 <;> try rfl
  cases b.policy <;> simp only
  cases h : b.lastGranted with
  | none => simp
  | some k => cases k <;> simp

/-! Stores keep Work Memory's form. -/

theorem cellBase_le (c : Fin 16) : cellBase c ≤ 0xF00 := by unfold cellBase; omega

theorem blockBase_le (b : Fin 16) : blockBase b + 2560 ≤ 0xC000 := by unfold blockBase; omega

theorem Memory.wf_writeWords {m : Memory} (h : m.wf) (ws : List (Nat × Word)) (hw : ∀ x ∈ ws, x.1 + 4 ≤ 0x10000) :
    (m.writeWords ws).wf := by
  induction ws generalizing m with
  | nil => exact h
  | cons x ws ih =>
    exact ih (Memory.wf_writeWord h _ _ (hw x (by simp))) fun y hy => hw y (by simp [hy])

theorem wordsFrom_bound {a : Nat} {ws : List Word} {x : Nat × Word} (h : x ∈ wordsFrom a ws) :
    a ≤ x.1 ∧ x.1 + 4 ≤ a + 4 * ws.length := by
  induction ws generalizing a with
  | nil => simp [wordsFrom] at h
  | cons w ws ih =>
    simp only [wordsFrom, List.mem_cons] at h
    rcases h with rfl | h
    · simp
    · have := ih h; simp only [List.length_cons]; omega

/-- The words of a completion lie in its cell, past the code word. -/
theorem Completion.words_bound {c : Completion} {x : Nat × Word} (h : x ∈ c.words) :
    cellBase c.cell + 4 ≤ x.1 ∧ x.1 + 4 ≤ cellBase c.cell + 0x20 := by
  simp only [Completion.words, List.mem_append, List.mem_singleton] at h
  rcases h with (h | h) | rfl
  · cases hi : c.item <;> simp [hi] at h
    subst h; simp
  · have := wordsFrom_bound h
    have hl : (c.results.take 4).length ≤ 4 := by simp
    omega
  · simp

theorem Completion.wf_writeBody {m : Memory} (h : m.wf) (c : Completion) : (c.writeBody m).wf :=
  Memory.wf_writeWords h _ fun x hx => by
    have := Completion.words_bound hx
    have := cellBase_le c.cell
    omega

/-- Every part of a report lies in its block, past the claim word. -/
theorem WriteJob.wf_writePart {m : Memory} (h : m.wf) (j : WriteJob) (n : Nat) : (j.writePart n m).wf := by
  have hb := blockBase_le j.block
  have h1 : (firstWords n j.header).length ≤ 44 := by simp [firstWords, WriteJob.header]
  have h2 : (firstWords (n - wordCount j.header) j.rowTable).length ≤ 384 := by simp [firstWords, WriteJob.rowTable]
  have h3 : (firstWords (n - wordCount j.header - wordCount j.rowTable) j.nodeArea).length ≤ 2048 := by
    simp [firstWords, WriteJob.nodeArea]
  unfold WriteJob.writePart
  exact Memory.wf_writeBytes (Memory.wf_writeBytes (Memory.wf_writeBytes h _ _ (by omega)) _ _ (by omega)) _ _ (by omega)

end Sys2Proof.Machine
end

