-- ==== Sys2Proof/Tests/Slice0.lean ====
section
/-! SUPPORT. Tests: ill-formed commands, the spec's worked cases, and for each statement with hypotheses a state and
operands that meet them, clause by clause. -/

namespace Sys2Proof.Tests

open Machine

/-! States to test on. -/

/-- A part that is up, with everything else at its reset value. -/
def up : State := { State.reset with ready := true }

/-- A pipe whose link is in a state. -/
def link (x : LinkState) : PipeState := { PipeState.reset with lc := { LinkCtl.reset with state := x } }

/-- A contract of 244 lines and one window. -/
def contract (c : Cadence) : Contract :=
  { number := 1, offerIndex := 1, modeIndex := 1, v := 240, vb := 4, n := 244, hmin := 100, f := 200000, h := 811,
    q := 116, w := 1, lw := 2000, cadence := c, fr := 300000, offset := 0, trimMax := 8, clamped := false,
    raised := false, fallback := false, reason := .offer }

/-- The plan of that contract. -/
def plan : Plan :=
  { frameNumber := 1, contractNumber := 1, f := 200000, h := 811, q := 116, w := 1, lw := 2000, v := 240, vb := 4,
    cadence := .free,
    slots := [.burst 0 97320 0 120, .window 97320 2000 1 0 false, .burst 99320 97320 120 120,
      .blank 196640 2433 240 3, .trim 199073 927] }

/-- An ACTIVE pipe that runs frame 1, in a slot of that plan. -/
def runs (c : Cadence) (slot : Nat) : PipeState :=
  { link .active with
    pb := { PlanBuilder.reset with contract := some (contract c), nextPlan := some plan },
    fr := { Runner.reset with state := .running, plan := some plan, slot := slot, frameNumber := 1 } }

/-- An ACTIVE pipe whose runner is in another state. -/
def waits (c : Cadence) (state : RunnerState) : PipeState :=
  { runs c 0 with fr := { (runs c 0).fr with state := state } }

/-- The part with one pipe as given, at an instant. -/
def withPipe (p : Pipe) (x : PipeState) (time : Word) : State := { up.withPipe p x with time := time }

/-- A request of a kind in cell 3, with a target byte and argument bytes from 0x20 on. -/
def request (kind target : Nat) (args : List Nat) : RequestRecord :=
  { cell := 3,
    image := padTo 256 (([kind, 7, 0, 0, 0, 0, 0, 0, target] ++ List.replicate 23 0 ++ args).map (BitVec.ofNat 8)) }

/-- The engine takes a request. -/
def taking (r : RequestRecord) (s : State) : State := { s with rqi := { s.rqi with engine := .taking r 0 } }

/-- What a command answers, as a state. -/
def after (c : Instr) (s : State) : State :=
  match exec c s with
  | .next t => t
  | .fault _ => s
  | .refused _ => s

/-- The part right after initialisation. -/
def started : State := after .initialisationCompletion State.reset

/-! Ill-formed commands, one for each check. -/

theorem test_reset_needs_its_bit : (Instr.softReset 0xFFFFFFFE).wellFormed = false := by decide
theorem test_discarded_is_no_notice : (Instr.registerWriteDiscarded 0x10007 1).wellFormed = false := by decide
theorem test_time_is_discarded : (Instr.registerWriteDiscarded 0x10013 1).wellFormed = true := by decide
theorem test_work_write_is_no_submission : (Instr.hostWorkMemoryWrite 0x0F03 1).wellFormed = false := by decide
theorem test_work_write_is_no_claim_return : (Instr.hostWorkMemoryWrite 0xB600 0).wellFormed = false := by decide
theorem test_submission_is_not_zero : (Instr.cellCodeWordWrite 15 0).wellFormed = false := by decide
theorem test_rejected_bytes_fail_a_check :
    (Instr.messageRejected .p0 [0x63, 0, crc8 [0x63, 0]]).wellFormed = false := by decide +kernel
theorem test_list_fits_a_length_byte :
    (Instr.list .p0 (List.replicate 19 { v := 240, vb := 4, wmax := 0, hmin := 100, lwMin := 2000, fmax := 200000 })
      ).wellFormed = false := by decide +kernel
theorem test_pipe_0_has_no_second_burst : (Instr.burstStart .p0).wellFormed = false := by decide

/-! Worked cases of the spec. -/

/-- The remainders of the bit strings on long division by 0x14D, worked outside the model (R188). -/
theorem test_crc : crc8 [0x63, 0] = 0x86 ∧ crc8 [0xA1, 0] = 0x9F ∧ crc8 [0xA2, 1, 2] = 0xE1 ∧
    crc8 [0x62, 2, 0xA3, 7] = 0x7B := by decide +kernel

/-- The contract of 4, Worked case: pipe 1 with eight windows. -/
def eightWindows : Contract :=
  { number := 1, offerIndex := 1, modeIndex := 1, v := 1440, vb := 40, n := 1480, hmin := 360, f := 666667, h := 385,
    q := 867, w := 8, lw := 12000, cadence := .free, fr := 666667, offset := 0, trimMax := 0, clamped := false,
    raised := false, fallback := false, reason := .offer }

/-- 4, Worked case: pipe 1 with eight windows: slots 1 to 4 and the last four. -/
theorem test_plan_eight_windows :
    ((planSlots eightWindows [] 0).take 4 =
      [.burst 0 61600 0 160, .window 61600 12000 1 0 false, .burst 73600 61600 160 160,
       .window 135200 12000 2 0 false]) ∧
    ((planSlots eightWindows [] 0).drop 15 =
      [.window 576800 12000 8 0 false, .burst 588800 61600 1280 160, .blank 650400 15015 1440 39,
       .trim 665415 1252]) := by decide

/-- 4, Worked case: quiet spans: what is stored, and slots 3 to 6 of the plan. -/
theorem test_quiet_spans_shift_window_2 :
    (storedSpans [⟨130000, 140000⟩, ⟨210000, 225000⟩, ⟨138000, 139000⟩, ⟨225000, 226000⟩, ⟨700000, 720000⟩] =
      [⟨130000, 140000⟩, ⟨210000, 226000⟩, ⟨700000, 720000⟩]) ∧
    (((planSlots eightWindows [⟨130000, 140000⟩, ⟨210000, 226000⟩, ⟨700000, 720000⟩] 20).drop 2).take 4 =
      [.burst 73600 66605 160 173, .window 140205 12000 2 13 false, .burst 152205 56595 333 147,
       .window 208800 12000 3 0 true]) := by decide +kernel

/-- 4, Worked case: burst split with a remainder. -/
theorem test_burst_split_evens_out :
    nominalCounts 1440 6 = [206, 206, 206, 206, 206, 205, 205] ∧
    nominalCounts 240 16 = 15 :: 15 :: List.replicate 15 14 := by decide

/-- 3, Worked selection walk at admission: the two modes. -/
def walkModes : List ModeRecord :=
  [{ v := 1440, vb := 40, wmax := 8, hmin := 400, lwMin := 10000, fmax := 1000000 },
   { v := 720, vb := 30, wmax := 4, hmin := 600, lwMin := 8000, fmax := 2000000 }]

/-- 3, Worked selection walk at admission: the three offers. -/
def walkOffers : List Offer :=
  [{ f := 500000, lw := 12000, fr := 0, offset := 0, trimMax := 256, w := 10, cadence := .lockedRef },
   { f := 666667, lw := 6000, fr := 0, offset := 0, trimMax := 0, w := 12, cadence := .free },
   { f := 666667, lw := 0, fr := 0, offset := 0, trimMax := 0, w := 0, cadence := .free }]

/-- Pipe 1 in HELD with those modes and some offers. -/
def walk (offers : List Offer) : State :=
  up.withPipe .p1 { link .held with
    lc := { LinkCtl.reset with state := .held, modes := walkModes }, pb := { PlanBuilder.reset with offers := offers } }

/-- 3, Worked selection walk at admission. -/
theorem test_selection_walk :
    (walk walkOffers).selection .p1 =
      { number := 1, offerIndex := 2, modeIndex := 2, v := 720, vb := 30, n := 750, hmin := 600, f := 666667, h := 846,
        q := 167, w := 4, lw := 8000, cadence := .free, fr := 666667, offset := 0, trimMax := 0, clamped := true,
        raised := true, fallback := false, reason := .offer } := by decide +kernel

/-- The same walk with offer 1 alone: the fallback on mode 1, F 592,000, H 400, Q 0, NO_FIT. -/
theorem test_selection_falls_back :
    ((walk (walkOffers.take 1)).selection .p1).f = 592000 ∧ ((walk (walkOffers.take 1)).selection .p1).h = 400 ∧
    ((walk (walkOffers.take 1)).selection .p1).q = 0 ∧
    ((walk (walkOffers.take 1)).selection .p1).reason = .noFit := by decide +kernel

/-- 6, Worked sequence: five frames of trim to lock; frames 40 and 41, and frame 47 of the next sequence. -/
theorem test_phase_errors :
    ({ LockCtl.reset with sourcePulse := some 0 } : LockCtl).errorAt 250 eightWindows = 250 ∧
    ({ LockCtl.reset with sourcePulse := some 666660 } : LockCtl).errorAt 666717 eightWindows = 57 ∧
    ({ LockCtl.reset with sourcePulse := some 4002960 } : LockCtl).errorAt 4666634 eightWindows = -2993 := by decide

/-- 6, Worked case: the Hmin floor: the four rows. -/
theorem test_hmin_floor :
    let c := { eightWindows with h := 400, q := 50, hmin := 400, trimMax := 128, cadence := .lockedPeer }
    let a := fun e : Int => ({ LockCtl.reset with state := .seeking, measured := true, phaseError := e }).adjustment c
    a 100 = -50 ∧ a 50 = -50 ∧ a 300 = -50 ∧ a (-300) = 128 := by decide

/-- IDENT reads 0xAC010420 once READY, 0x2C010420 before (R3, 12.1). -/
theorem test_ident : up.hostRead 0x10000 = 0xAC010420 ∧ State.reset.hostRead 0x10000 = 0x2C010420 := by decide

/-- PROBE, SELECT(2), FRAME and HOLD take 3, 4, 5 and 7 bytes, and begin with their types (2.1, 12.6). -/
theorem test_sent_bytes :
    TxMessage.probe.bytes = [0xA1, 0, 0x9F] ∧ (TxMessage.select 2).bytes = [0xA2, 1, 2, 0xE1] ∧
    (TxMessage.frame 7 8).bytes.take 4 = [0xA3, 2, 7, 8] ∧
    (TxMessage.hold 12000).bytes.take 6 = [0xA4, 4, 0xE0, 0x2E, 0, 0] ∧ (TxMessage.hold 0).bytes.length = 7 := by
  decide +kernel

/-! A part that is up, its status area shown and nothing in it, with a write to NOTICE_MASK waiting: a safe state. -/

def calm : State := { up.writeStatusArea with pending := [.noticeMaskWrite 5] }

theorem calm_cells : calm.cellsSafe := by
  have h : calm.ready = true := rfl
  refine ⟨by decide +kernel, ?_⟩
  rw [if_pos h]
  exact ⟨by decide, by decide, by decide, by decide, by decide, by decide⟩

theorem calm_coherent (p : Pipe) : (calm.pipe p).coherent := by
  cases p <;> exact ⟨by decide, by decide, by decide, by decide, by decide, by decide, by decide, by decide, by decide,
    by decide, fun _ h => (nomatch h), by decide, by decide, by decide⟩

theorem calm_pipes : calm.pipesSafe :=
  ⟨calm_coherent, by unfold State.peersApart PlanBuilder.holdsPeer; decide, fun h => nomatch h⟩

theorem calm_bank : calm.bankSafe :=
  ⟨fun _ h => (nomatch h), fun _ => ⟨rfl, rfl, rfl⟩, fun h => (nomatch h), fun k _ h => by cases k <;> exact nomatch h⟩

theorem calm_sensing : calm.sensingSafe :=
  ⟨fun _ h => (nomatch h), fun k _ h => (by cases k <;> exact nomatch h), rfl⟩

theorem calm_blocks : calm.blocksSafe :=
  ⟨by decide, by decide, by decide, by decide, by decide +kernel, fun k => by cases k <;> decide⟩

theorem calm_pipes_bounded (p : Pipe) : (calm.pipe p).bounded := by
  cases p <;> exact ⟨by decide, by decide, by decide, by decide, by decide, by decide,
    (fun _ h => by rcases h with h | h <;> exact nomatch h), (fun _ h => by rcases h with h | h <;> exact nomatch h),
    ⟨by decide, by decide, (fun _ h => nomatch h)⟩, by decide, by decide, by decide, by decide,
    ⟨by decide, (fun _ h => nomatch h)⟩, (fun _ h => nomatch h)⟩

theorem calm_surfaces_bounded (k : Surface) : (calm.surf k).bounded k := by
  cases k <;> exact ⟨by unfold Geometry.inRange; decide, by decide, by decide, by decide, by decide, by decide, by decide,
    by decide⟩

theorem calm_bounded : calm.bounded :=
  ⟨calm_pipes_bounded, calm_surfaces_bounded, ⟨by decide, by decide, by decide⟩, by decide, by decide, by decide⟩

/-- Witness for the safe states of what every step keeps: a part that is up, and a command that waits. -/
theorem calm_safe : calm.safe :=
  ⟨by decide +kernel, calm_cells, calm_pipes, calm_bank, calm_sensing, calm_blocks, calm_bounded,
   fun _ => State.writeStatusArea_records up⟩

/-- A step from it answers a next state, in which the mask has changed. -/
theorem calm_steps : ∃ t, step calm = .next t ∧ t.noticeMask ≠ calm.noticeMask := ⟨_, rfl, by decide⟩
/-! Witnesses: for each statement with hypotheses, states and operands that meet them, clause by clause. Bits, bytes
and addresses are taken at the ends of their ranges. -/

/-- A part that is up with nothing to do lets a TU pass, which TIME counts; one that writes a completion or a report may,
too, and one with a queued cell may not. -/
theorem witness_StepRunsFrontCommand :
    (up.pending = [] ∧ up.due = [] ∧ up.possible = [] ∧ up.rpw.writer = none) ∧
    (let c : Completion := { cell := 15, tag := 7, status := .done, item := none, results := [1] }
     let s := { up with rqi := { up.rqi with engine := .writing c 0 } }
     s.pending = [] ∧ s.due = [] ∧ s.possible = [.completionWrite]) ∧
    ({ up with rqi := { up.rqi with intake := [15] } } : State).due = [.requestTake] ∧
    step up = .next { up with time := 1 } :=
  ⟨by decide +kernel, by decide +kernel, by decide +kernel, rfl⟩

/-- Memory whose block 15 has a claim word, and block 0 none. -/
def claimed : State := { up with mem := [(0xB600, 9)], filledMarks := (Vector.replicate 16 false).set 15 true }

theorem witness_ResetsReturnTheBlocks :
    (0xFFFFFFFE : Word).getLsbD 0 = false ∧ (1 : Word).getLsbD 0 = true ∧
    claimed.mem.readWord (blockBase 0) = 0 ∧ claimed.mem.readWord (blockBase 15) ≠ 0 := by decide

/-- An initialisation in progress, with cell 15 still part-owned. -/
def rising : State := { State.reset with cells := (Vector.replicate 16 .hostOwned).set 15 .parked }

theorem witness_InitialisationEndsReady :
    (calm.pipesSafe ∧ calm.ready = true) ∧
    (rising.pipesSafe ∧ rising.ready = false ∧ rising.cells[(15 : Fin 16)] ≠ .hostOwned) :=
  ⟨⟨calm_pipes, rfl⟩,
   ⟨calm_coherent, by unfold State.peersApart PlanBuilder.holdsPeer; decide, fun _ => ⟨rfl, fun p => by cases p <;> rfl⟩⟩,
   rfl, by decide⟩

theorem witness_NoticeRegistersAndPin :
    (∃ t, exec .powerOnReset up = .next t) ∧ (1 : Word).getLsbD 0 = true ∧ ∃ t, exec (.softReset 1) up = .next t :=
  ⟨⟨_, rfl⟩, by decide, ⟨_, rfl⟩⟩

/-- A read of four words from 0xFFFD on, in TIME 5 and with flags set: the last Work Memory word, IDENT, NOTICE and
NOTICE_MASK; the same run of writes; and a run of writes over a code word and from 0x1FFC over a claim word. -/
theorem test_transactions_go_word_by_word :
    (let s := { up with notice := { up.notice with report := true }, noticeMask := { up.noticeMask with fault := true } }
     s.hostReads 0xFFFD 4 = [0, 0xAC010420, 2, 8]) ∧
    transactionCommands 0xFFFD [1, 2, 3, 4] =
      [.hostWorkMemoryWrite 0xFFFD 1, .registerWriteDiscarded 0x10000 2, .noticeWrite 3, .noticeMaskWrite 4] ∧
    transactionCommands 0x1000C [1, 2, 3] =
      [.softReset 1, .registerWriteDiscarded 0x10010 2, .registerWriteDiscarded 0x10014 3] ∧
    transactionCommands 0x0EFC [1, 2, 3] =
      [.hostWorkMemoryWrite 0x0EFC 1, .cellCodeWordWrite 15 2, .hostWorkMemoryWrite 0x0F04 3] ∧
    transactionCommands 0x1FFC [1, 0, 3] =
      [.hostWorkMemoryWrite 0x1FFC 1, .claimReturn 0, .hostWorkMemoryWrite 0x2004 3] := by decide +kernel

/-- The ends of each register and region, with the premises of both host write rows. -/
theorem witness_HostWritesByRegion :
    (∀ w ∈ [0, 0xFFFC, 0x10000, 0x10004, 0x10008, 0x1000C, 0x10010, 0x10014, 0xFFFFFC],
      w / 4 * 4 = w ∧ ∃ a : BitVec 24, a.toNat / 4 * 4 = w) ∧
    (∀ a ∈ [0x10000, 0x10003, 0x10010, 0x10014, 0xFFFFFF], (0x10000 ≤ a ∧ a < 0x10004) ∨ 0x10010 ≤ a) ∧
    (∀ a ∈ [0x0000, 0x0004, 0x0FFF, 0x1000, 0x1FFF, 0x2004, 0xBFFF, 0xC000, 0xFFFF], ∃ v : Word,
      (a < 0x1000 → a / 4 * 4 % 256 = 0 → v = 0) ∧
      (0x2000 ≤ a ∧ a < 0xC000 → (a / 4 * 4 - 0x2000) % 2560 = 0 → v ≠ 0)) ∧
    up.ready = true ∧ up.cells[Fin.ofNat 16 0] = .hostOwned :=
  ⟨fun w hw => ⟨by revert w; decide, BitVec.ofNat 24 w, by revert w; decide⟩, by decide, fun a ha => ⟨0, fun _ _ => rfl, fun h1 h2 => absurd h2 (by revert h1; revert a; decide)⟩, rfl, by decide⟩

theorem witness_SubmittedCellsQueue :
    (up.ready = true ∧ up.cells[(15 : Fin 16)] = .hostOwned ∧ (1 : Word) ≠ 0) ∧ State.reset.ready = false ∧
    rising.cells[(15 : Fin 16)] ≠ .hostOwned := by decide

theorem witness_ClaimReturnsFreeTheBlock :
    (claimed.ready = true ∧ claimed.filledMarks[(15 : Fin 16)] = true) ∧ State.reset.ready = false ∧
    claimed.filledMarks[(0 : Fin 16)] = false := by decide

/-- Cell 15 is queued, with a kind in its code word. -/
def queued (kind : Byte) : State :=
  { up with mem := [(0x0F00, kind)], rqi := { up.rqi with intake := [15] } }

theorem witness_TakesServeTheQueueHead :
    (∀ k : Byte, (queued k).rqi.engine = .idle ∧ (queued k).rqi.completions = [] ∧ (queued k).rqi.intake = 15 :: []) ∧
    (∀ k ∈ ([0, 1, 13, 14, 255] : List Byte),
      RequestRecord.kind { cell := 15, image := (queued k).mem.readBytes (cellBase 15) 256 } = k.toNat) ∧
    up.rqi.intake = [] ∧ (taking (request 1 0 []) up).rqi.engine ≠ .idle :=
  ⟨fun _ => ⟨rfl, rfl, rfl⟩, by decide +kernel, rfl, by decide⟩

/-- A completion with an item index, and one with four result words, in cell 15. -/
theorem witness_CompletionsReachTheCell : ∀ c ∈ ([
      { cell := 15, tag := 7, status := .badValue, item := some 3, results := [] },
      { cell := 15, tag := 7, status := .done, item := none, results := [1, 2, 3, 4] }] : List Completion),
    ∃ s : State, s.rqi.engine = .writing c 0 ∧ c.results.length ≤ 4 :=
  fun c hc => ⟨{ up with rqi := { up.rqi with engine := .writing c 0 } }, rfl, by revert c; decide⟩

/-! Requests. -/

/-- The engine in the take of a request of its own kind. -/
theorem takes_request (kind : Nat) (r : RequestRecord) (s : State) (h : r.kind = kind) : (taking r s).takes kind r :=
  ⟨h, 0, rfl⟩

/-- Every kind with a target is taken with a byte that is no target of it. -/
theorem witness_bad_targets :
    (∀ k ∈ [(0x01, Instr.setOffers), (0x02, .negotiate), (0x03, .admitPipe), (0x04, .pipeRestart), (0x06, .urgentBand),
        (0x07, .frameNow)], (request k.1 2 []).kind = k.1 ∧ (request k.1 2 []).u8 0x08 ≠ 0x00 ∧
        (request k.1 2 []).u8 0x08 ≠ 0x01) ∧
    ((request 0x05 0 []).kind = 0x05 ∧ (request 0x05 0 []).u8 0x08 ≠ 0x01) ∧
    (∀ k ∈ [0x09, 0x0A], (request k 0x12 []).kind = k ∧ (request k 0x12 []).u8 0x08 ≠ 0x10 ∧
        (request k 0x12 []).u8 0x08 ≠ 0x11) ∧
    (request 0x0D 0xFF []).kind = 0x0D ∧ (request 0x0D 0xFF []).u8 0x08 ∉ [0x00, 0x01, 0x10, 0x11] := by
  decide +kernel

/-- One offer: F 200,000, FREE. -/
def offerBytes (f3 w cadence : Nat) : List Nat := [64, 13, 3, f3, 0, 0, 0, 0, 0, 0, 0, 0, 0, 0, 0, 0, 0, 0, w, cadence]

/-- A geometry: rows, columns, row time 1,000, interval 200,000, window 12,000, slack. -/
def geometryBytes (rows cols slack3 : Nat) : List Nat :=
  [rows, cols, 0, 0, 232, 3, 0, 0, 64, 13, 3, 0, 224, 46, 0, 0, 0, 0, 0, slack3]

/-- The first and the last item of each kind can be the first that fails. -/
theorem witness_FirstFailingCheckRefusesTheRequest :
    (firstFailing (request 0x01 0 ([0, 0, 0, 0] ++ offerBytes 0 0 1)).offerItems 0 ∧
      firstFailing (request 0x01 1 ([1, 0, 0, 0] ++ offerBytes 0 17 1)).offerItems 1) ∧
    (firstFailing (request 0x05 1 [9, 0]).quietItems 0 ∧
      firstFailing (request 0x05 1 [1, 63, 0, 0, 5, 0, 0, 0, 5, 0, 0, 0]).quietItems 1) ∧
    (firstFailing ((request 0x06 0 [9, 0, 8, 0]).bandItems 2160) 0 ∧
      firstFailing ((request 0x06 0 [8, 0, 9, 0, 0, 0, 0, 0]).bandItems (runs .free 1).bandLimit) 2) ∧
    (firstFailing (request 0x08 0 [0]).referenceItems 0 ∧ firstFailing (request 0x08 0 [2]).referenceItems 1) ∧
    (firstFailing ((request 0x09 0x10 [3]).surfaceItems .s0) 0 ∧
      firstFailing ((request 0x09 0x11 (geometryBytes 2 2 1)).surfaceItems .s1) 6) ∧
    firstFailing [within ((request 0x0A 0x10 [2]).u8 0x20) 0 1] 0 ∧
    firstFailing [within ((request 0x0B 0 [0]).u8 0x20) 1 3] 0 ∧
    (firstFailing (request 0x0C 0 [8]).pinItems 0 ∧ firstFailing (request 0x0C 0 [0, 0, 5, 0, 1, 1, 4, 2]).pinItems 3) ∧
    (request 0x01 1 []).targetsPipe .p1 ∧ (request 0x05 1 []).targetsPipe .p1 ∧
    (request 0x09 0x11 []).targetsSurface .s1 ∧ (request 0x0A 0x10 []).targetsSurface .s0 := by
  unfold firstFailing RequestRecord.targetsPipe RequestRecord.targetsSurface
  repeat' apply And.intro
  all_goals decide +kernel

/-- A SET_OFFERS of one offer with the auto-admit flag as given. -/
def offering (auto : Nat) : RequestRecord := request 0x01 0 ([1, auto, 0, 0] ++ offerBytes 0 16 1)

theorem witness_SetOffersStoresTheOffers : ∀ auto ∈ [0, 1],
    (taking (offering auto) (withPipe .p0 (link .held) 0)).takes 0x01 (offering auto) ∧
    (offering auto).targetsPipe .p0 ∧ allPass (offering auto).offerItems ∧
    ((withPipe .p0 (link .held) 0).pipe .p0).lc.state = .held ∧ (offering auto).u8 0x21 = auto := by
  intro auto h
  have h2 : auto = 0 ∨ auto = 1 := by simpa using h
  rcases h2 with rfl | rfl <;>
    exact ⟨takes_request _ _ _ (by decide), by unfold RequestRecord.targetsPipe; decide,
      by unfold allPass; decide +kernel, by decide, by decide⟩

/-- A NEGOTIATE with none parked, with one parked, and on another link. -/
theorem witness_NegotiateStages :
    let r := request 0x02 1 []
    r.targetsPipe .p1 ∧ (∀ s, (taking r s).takes 0x02 r) ∧
    ((runs .free 1).lc.state = .active ∧ (runs .free 1).pb.negotiate = none) ∧
    (let x := { runs .free 1 with pb := { (runs .free 1).pb with negotiate := some ⟨2, 0⟩ } }
     x.lc.state = .active ∧ x.pb.negotiate ≠ none) ∧ (link .selecting).lc.state ≠ .active :=
  ⟨by unfold RequestRecord.targetsPipe; decide, fun s => takes_request _ _ s (by decide), by decide, by decide, by decide⟩

/-- A link with an ADMIT parked. -/
def admits (x : LinkState) : PipeState :=
  { link x with lc := { (link x).lc with parkedAdmit := some ⟨2, 0⟩ } }

theorem witness_AdmitIsDecidedByTheLink :
    let r := request 0x03 0 []
    r.targetsPipe .p0 ∧ (∀ s, (taking r s).takes 0x03 r) ∧ (link .off).lc.state = .off ∧
    ((runs .free 1).lc.state = .active ∧ (runs .free 1).pb.contract = some (contract .free)) ∧
    (∀ l ∈ [LinkState.probing, .held, .selecting, .recovery], l ≠ .off ∧ l ≠ .active ∧
      (admits l).lc.parkedAdmit ≠ none ∧ (link l).lc.parkedAdmit = none ∧ (link l).lc.state = l) :=
  ⟨by unfold RequestRecord.targetsPipe; decide, fun s => takes_request _ _ s (by decide), by decide, by decide,
   by decide⟩

theorem witness_PipeRestartProbesAgain :
    let r := request 0x04 1 []
    (taking r calm).bankSafe ∧ (taking r calm).takes 0x04 r ∧ r.targetsPipe .p1 :=
  ⟨calm_bank, takes_request _ _ _ (by decide), by unfold RequestRecord.targetsPipe; decide⟩

theorem witness_SetQuietStoresMergedSpans :
    (∀ r ∈ [request 0x05 1 [0, 0], request 0x05 1 [1, 63, 0, 0, 0, 0, 0, 0, 0, 9, 61, 0]],
      r.targetsPipe .p1 ∧ (taking r up).takes 0x05 r ∧ allPass r.quietItems) ∧
    ∀ x ∈ ([⟨0, 1⟩, ⟨1, 4000000⟩] : List Span), x.start < x.stop := by
  refine ⟨fun r h => ?_, by decide⟩
  have h2 : r = request 0x05 1 [0, 0] ∨ r = request 0x05 1 [1, 63, 0, 0, 0, 0, 0, 0, 0, 9, 61, 0] := by simpa using h
  rcases h2 with rfl | rfl <;>
    exact ⟨by unfold RequestRecord.targetsPipe; decide, takes_request _ _ _ (by decide), by unfold allPass; decide +kernel⟩

/-- A band of lines 0 to 239 with a deadline of 1,000: the burst that holds line 0 has started in slot 5. -/
theorem slot5_serves_no_line (c : Cadence) (line : Nat) : ¬ (runs c 5).fr.stillServes line := by
  rintro ⟨-, pl, k, x, hp, hx, -, -, hk⟩
  obtain rfl : plan = pl := by injection hp
  have hk : 5 ≤ k := hk
  have : plan.slots[k]? = none := List.getElem?_eq_none (by simpa [plan] using hk)
  simp [this] at hx

theorem slot1_serves_line_239 (c : Cadence) : (runs c 1).fr.stillServes 239 :=
  ⟨rfl, plan, 2, .burst 99320 97320 120 120, rfl, rfl, by simp [Slot.holds], by
    intro j hj y hy
    have : j = 0 ∨ j = 1 := by omega
    rcases this with rfl | rfl <;> (cases hy; simp [Slot.holds]), by show 1 ≤ 2; decide⟩

theorem stretch_serves_no_line (c : Cadence) (line : Nat) : ¬ (waits c .stretch).fr.stillServes line :=
  fun h => nomatch h.1

/-- A band parked. -/
def band : Band :=
  { request := ⟨2, 0⟩, firstLine := 0, lastLine := 239, deadline := 1000, intake := 0, serving := some 1,
    wholeFrame := false }

theorem witness_UrgentBandParks :
    let r := request 0x06 0 [239, 0, 239, 0, 232, 3, 0, 0]
    r.targetsPipe .p0 ∧ (∀ s, (taking r s).takes 0x06 r) ∧ allPass (r.bandItems (runs .free 1).bandLimit) ∧
    r.u16 0x20 = 239 ∧ (link .held).lc.state ≠ .active ∧
    (let x := { runs .free 1 with fr := { (runs .free 1).fr with bands := [band, band, band, band] } }
     x.lc.state = .active ∧ 4 ≤ x.fr.bands.length) ∧
    ((runs .relaxed 5).lc.state = .active ∧ (runs .relaxed 5).fr.bands.length < 4 ∧
      ¬ (runs .relaxed 5).fr.stillServes 239 ∧ (runs .relaxed 5).pb.contract.map (·.cadence) = some .relaxed ∧
      (runs .relaxed 5).fr.state = .running) ∧
    (¬ (waits .relaxed .stretch).fr.stillServes 239 ∧ (waits .relaxed .stretch).fr.state = .stretch ∧
      (withPipe .p0 (waits .relaxed .stretch) 0).peersApart) ∧
    (runs .free 1).fr.stillServes 239 :=
  ⟨by unfold RequestRecord.targetsPipe; decide, fun s => takes_request _ _ s (by decide), by unfold allPass; decide +kernel,
   by decide, by decide, by decide, ⟨by decide, by decide, slot5_serves_no_line _ _, by decide, by decide⟩,
   ⟨stretch_serves_no_line _ _, by decide, by unfold State.peersApart PlanBuilder.holdsPeer; decide⟩,
   slot1_serves_line_239 _⟩

theorem witness_FrameNowPullsIn :
    let r := request 0x07 1 []
    let parked := { runs .relaxed 1 with fr := { (runs .relaxed 1).fr with frameNow := some ⟨2, 0⟩ } }
    r.targetsPipe .p1 ∧ (∀ s, (taking r s).takes 0x07 r) ∧
    ¬ ((runs .free 1).lc.state = .active ∧ (runs .free 1).pb.contract.map (·.cadence) = some .relaxed) ∧
    (parked.lc.state = .active ∧ parked.pb.contract.map (·.cadence) = some .relaxed ∧ parked.fr.frameNow ≠ none) ∧
    (∀ x ∈ [RunnerState.running, .stretch, .aligning],
      (waits .relaxed x).lc.state = .active ∧ (waits .relaxed x).pb.contract.map (·.cadence) = some .relaxed ∧
      (waits .relaxed x).fr.frameNow = none ∧ (waits .relaxed x).fr.state = x) ∧
    (withPipe .p1 (waits .relaxed .stretch) 0).peersApart :=
  ⟨by unfold RequestRecord.targetsPipe; decide, fun s => takes_request _ _ s (by decide), by decide, by decide,
   by decide, by unfold State.peersApart PlanBuilder.holdsPeer; decide⟩

theorem witness_SetReferenceStartsTheSource :
    (∀ source ∈ [1, 2], let r := request 0x08 0 [source, 0, 0, 0, 64, 13, 3, 0]
      r.kind = 0x08 ∧ allPass r.referenceItems ∧ r.u8 0x20 = source) ∧
    (runs .lockedRef 1).pb.contract.map (·.cadence) = some .lockedRef ∧
    ∀ p, ¬ ((up.pipe p).pb.contract.map (·.cadence) = some .lockedRef ∨
      (up.pipe p).pb.selected.map (·.cadence) = some .lockedRef) := by
  refine ⟨by unfold allPass; decide +kernel, by decide, fun p => by cases p <;> decide⟩

theorem witness_SetSurfaceReplacesTheGeometry :
    (let r := request 0x09 0x10 (geometryBytes 64 4 0)
     calm.bankSafe ∧ r.kind = 0x09 ∧ r.targetsSurface .s0 ∧ allPass (r.surfaceItems .s0)) ∧
    (let r := request 0x09 0x11 (geometryBytes 16 16 0)
     r.kind = 0x09 ∧ r.targetsSurface .s1 ∧ allPass (r.surfaceItems .s1)) := by
  refine ⟨⟨calm_bank, ?_⟩, ?_⟩ <;> unfold RequestRecord.targetsSurface allPass <;> decide +kernel

/-- A surface turns on and off, and a byte names its present state. -/
theorem witness_SurfaceEnableSwitchesTheSurface :
    calm.bankSafe ∧
    (∀ n ∈ [0, 1], ∀ t ∈ [(0x10, Surface.s0), (0x11, .s1)], let r := request 0x0A t.1 [n]
      r.kind = 0x0A ∧ r.targetsSurface t.2 ∧ allPass [within (r.u8 0x20) 0 1] ∧ r.u8 0x20 = n) ∧
    (∀ k, (up.surf k).enabled = false) ∧ (∀ k, ({ up.surf k with enabled := true } : SurfaceState).enabled = true) := by
  refine ⟨calm_bank, by unfold RequestRecord.targetsSurface allPass; decide +kernel, fun k => by cases k <;> rfl, fun _ => rfl⟩

theorem witness_SettingsAndFaultSetsChangeAlone :
    (∀ n ∈ [1, 2, 3], (request 0x0B 0 [n]).kind = 0x0B ∧ ∃ policy,
      ((request 0x0B 0 [n]).u8 0x20, policy) ∈ [(1, Policy.equal), (2, Policy.inCellFirst), (3, Policy.padFirst)]) ∧
    ((request 0x0C 0 [7, 9, 1, 1, 3, 0, 0, 0]).kind = 0x0C ∧ allPass (request 0x0C 0 [7, 9, 1, 1, 3, 0, 0, 0]).pinItems) ∧
    ((request 0x0D 1 []).kind = 0x0D ∧ (request 0x0D 1 []).targetsPipe .p1) ∧
    (request 0x0D 0x11 []).kind = 0x0D ∧ (request 0x0D 0x11 []).targetsSurface .s1 := by
  refine ⟨fun n h => ?_, ?_⟩
  · have h2 : n = 1 ∨ n = 2 ∨ n = 3 := by simpa using h
    rcases h2 with rfl | rfl | rfl
    · exact ⟨by decide, .equal, by decide⟩
    · exact ⟨by decide, .inCellFirst, by decide⟩
    · exact ⟨by decide, .padFirst, by decide⟩
  · unfold allPass RequestRecord.targetsPipe RequestRecord.targetsSurface; decide +kernel
/-! Links. -/

theorem witness_ReceivedBytesAreChecked :
    (∀ bytes ∈ ([[], [0x63, 0, crc8 [0x63, 0] + 1], [0x65, 0, crc8 [0x65, 0]], [0x63, 1, crc8 [0x63, 1]],
      [0x64, 2, 1, 1, crc8 [0x64, 2, 1, 1]], [0x61, 2, 0, 0, crc8 [0x61, 2, 0, 0]]] : List (List Byte)),
      rxOfBytes bytes = none) ∧ rxOfBytes [0x61, 1, 0, crc8 [0x61, 1, 0]] = some (.list []) ∧
    ∃ modes : List ModeRecord, modes.length ≤ 18 ∧ modes.length = 18 :=
  ⟨by decide +kernel, by decide +kernel, List.replicate 18 absentMode, by decide, by decide⟩

/-- The mode records at both ends of every range. -/
def lowest : ModeRecord := { v := 240, vb := 4, wmax := 0, hmin := 100, lwMin := 2000, fmax := 200000 }

def highest : ModeRecord := { v := 2160, vb := 255, wmax := 16, hmin := 4000, lwMin := 80000, fmax := 4000000 }

theorem witness_ListEndsProbing :
    (∀ m ∈ [lowest, highest], 240 ≤ m.v.toNat ∧ m.v.toNat ≤ 2160 ∧ 4 ≤ m.vb.toNat ∧ m.wmax.toNat ≤ 16 ∧
      100 ≤ m.hmin.toNat ∧ m.hmin.toNat ≤ 4000 ∧ 2000 ≤ m.lwMin.toNat ∧ m.lwMin.toNat ≤ 80000 ∧
      200000 ≤ m.fmax.toNat ∧ m.fmax.toNat ≤ 4000000) ∧
    ((link .probing).lc.state = .probing ∧ (link .probing).lc.parkedAdmit = none ∧ (link .probing).pb.autoAdmit = false) ∧
    (admits .probing).lc.parkedAdmit ≠ none ∧ ¬ 1 ≤ ([] : List ModeRecord).length ∧
    (List.replicate 18 lowest).length ≤ 18 ∧ ¬ (List.replicate 18 lowest).length ≤ 7 ∧
    19 ≤ (List.replicate 19 lowest).length ∧
    (link .held).lc.state ≠ .probing := by decide

/-- A link in SELECTING with the SELECT of mode 1 outstanding, its answer timer expiring now. -/
def selects (c : Cadence) : PipeState :=
  { link .selecting with
    lc := { (link .selecting).lc with outstanding := some (.select 1), answerDeadline := some 0 },
    pb := { PlanBuilder.reset with contract := some (contract c) } }

theorem witness_AckOfSelectEntersActive : ∀ c : Cadence,
    (selects c).lc.state = .selecting ∧ (selects c).lc.outstanding = some (.select 1) ∧
    (selects c).pb.contract = some (contract c) ∧ (contract c).cadence = c ∧ (withPipe .p1 (selects c) 0).peersApart := by
  intro c
  cases c <;> exact ⟨rfl, rfl, rfl, rfl, by unfold State.peersApart PlanBuilder.holdsPeer; decide⟩

/-- An ACTIVE link with a FRAME outstanding and some misses, its answer timer expiring now. -/
def awaits (misses : Nat) : PipeState :=
  { runs .free 1 with
    lc := { (runs .free 1).lc with outstanding := some (.frame 255), missedAcks := misses, answerDeadline := some 0 } }

theorem witness_AnswersMatchTheOutstandingMessage :
    ((awaits 0).lc.state = .active ∧ (awaits 0).lc.outstanding = some (.frame 255)) ∧
    (¬ ((awaits 0).lc.state = .active ∧ (0xA3 : Byte) = 0xA3 ∧ (awaits 0).lc.outstanding = some (.frame 254)) ∧
      ¬ ((awaits 0).lc.state = .selecting ∧ (0xA3 : Byte) = 0xA2 ∧ (awaits 0).lc.outstanding = some (.select 254))) ∧
    ((runs .free 1).lc.state ≠ .selecting ∧ (runs .free 1).lc.outstanding = none) := by decide

theorem witness_SelectRefusedEntersRecovery :
    calm.bankSafe ∧ ((selects .free).lc.state = .selecting ∧ (selects .free).lc.answerDeadline = some 0) ∧
    (link .held).lc.state ≠ .selecting ∧ (selects .free).lc.answerDeadline ≠ some 1 :=
  ⟨calm_bank, by decide, by decide, by decide⟩

theorem witness_ThirdMissEntersRecovery :
    calm.bankSafe ∧ (∀ n, (awaits n).lc.state = .active ∧ (awaits n).lc.outstanding = some (.frame 255) ∧
      (awaits n).lc.answerDeadline = some 0 ∧ (awaits n).lc.missedAcks = n) ∧ 1 < 2 ∧ 2 ≤ 2 :=
  ⟨calm_bank, fun _ => ⟨rfl, rfl, rfl, rfl⟩, by decide, by decide⟩

theorem witness_PanelFaultStopsTheLink : calm.bankSafe ∧ ∀ l, (link l).lc.state = l := ⟨calm_bank, fun _ => rfl⟩

/-- A link that sends a message to its end now. -/
def sends (m : TxMessage) (supervised : Bool) : PipeState :=
  { link .probing with
    lc := { (link .probing).lc with sending := some { message := m, supervised := supervised, endsAt := 0 } } }

theorem witness_SentMessageStartsItsTimer : ∀ (m : TxMessage) (b : Bool),
    ∃ x, (sends m b).lc.sending = some x ∧ x.endsAt = (withPipe .p0 (sends m b) 0).time ∧ x.message = m ∧ x.supervised = b :=
  fun _ _ => ⟨_, rfl, rfl, rfl, rfl⟩

/-- A link in PROBING whose answer timer expires now, after some PROBEs. -/
def probes (n : Nat) : PipeState :=
  { link .probing with lc := { (link .probing).lc with answerDeadline := some 0, probeCount := n } }

theorem witness_ProbingAndRecoveryEnd :
    (∀ n, (probes n).lc.state = .probing ∧ (probes n).lc.answerDeadline = some 0 ∧ (probes n).lc.probeCount = n) ∧
    7 < 8 ∧ 8 ≤ 8 ∧
    (let x := { link .recovery with lc := { (link .recovery).lc with quietEnd := some 0 } }
     x.lc.state = .recovery ∧ x.lc.quietEnd = some 0) :=
  ⟨fun _ => ⟨rfl, rfl, rfl⟩, by decide, by decide, rfl, rfl⟩

/-! Frames. -/

/-- A runner that waits in ALIGNING, its instants now. -/
def aligns (start deadline : Option Word) : PipeState :=
  { waits .lockedRef .aligning with
    fr := { (waits .lockedRef .aligning).fr with alignedStart := start, alignDeadline := deadline } }

theorem witness_WaitingRunnersStartFrameOne :
    (withPipe .p0 (aligns (some 0) none) 0).peersApart ∧ (aligns (some 0) none).fr.state = .aligning ∧
    (aligns (some 0) none).fr.alignedStart = some 0 ∧ (aligns none (some 0)).fr.alignedStart = none ∧
    (aligns none (some 0)).fr.alignDeadline = some 0 :=
  ⟨by unfold State.peersApart PlanBuilder.holdsPeer; decide, rfl, rfl, rfl, rfl⟩

/-- Each slot of the plan reaches the next at its planned start. -/
theorem runs_reach (c : Cadence) :
    (runs c 1).fr.reaches 97320 (.burst 0 97320 0 120) (.window 97320 2000 1 0 false) ∧
    (runs c 2).fr.reaches 99320 (.window 97320 2000 1 0 false) (.burst 99320 97320 120 120) ∧
    (runs c 3).fr.reaches 196640 (.burst 99320 97320 120 120) (.blank 196640 2433 240 3) ∧
    (runs c 4).fr.reaches 199073 (.blank 196640 2433 240 3) (.trim 199073 927) :=
  ⟨⟨plan, 0, ⟨rfl, rfl, rfl, rfl⟩, rfl, by cases c <;> decide⟩, ⟨plan, 1, ⟨rfl, rfl, rfl, rfl⟩, rfl, by cases c <;> decide⟩,
   ⟨plan, 2, ⟨rfl, rfl, rfl, rfl⟩, rfl, by cases c <;> decide⟩, ⟨plan, 3, ⟨rfl, rfl, rfl, rfl⟩, rfl, by cases c <;> decide⟩⟩

theorem witness_SlotStartsByThePlan :
    (runs .free 2).fr.reaches 99320 (.window 97320 2000 1 0 false) (.burst 99320 97320 120 120) ∧
    (runs .free 4).fr.reaches 199073 (.blank 196640 2433 240 3) (.trim 199073 927) ∧
    (runs .free 4).fr.plan = some plan ∧ (runs .free 4).pb.contract = some (contract .free) :=
  ⟨(runs_reach _).2.1, (runs_reach _).2.2.2, rfl, rfl⟩

theorem witness_WindowStartAsksForTheBank :
    ((withPipe .p1 (runs .free 1) 97320).pipe .p1).fr.reaches 97320 (.burst 0 97320 0 120)
      (.window 97320 2000 1 0 false) ∧ (runs .free 1).fr.plan = some plan ∧
    (withPipe .p1 (runs .free 1) 97320).surfaces.s0.enabled = false ∧
    ({ up.surf .s0 with enabled := true } : SurfaceState).enabled = true :=
  ⟨(runs_reach _).1, rfl, rfl, rfl⟩

/-- A pipe at its plan point, under a contract of a mode, with a phase and a selected contract. -/
def plansNext (mode : Nat) (phase : Phase) (selected : Option Contract) : PipeState :=
  { runs .free 3 with
    pb := { (runs .free 3).pb with contract := some { contract .free with modeIndex := mode }, phase := phase,
                                   selected := selected } }

theorem witness_PlanPointPlansTheNextFrame :
    (∀ mode phase selected, (plansNext mode phase selected).fr.reaches 196640 (.burst 99320 97320 120 120)
        (.blank 196640 2433 240 3) ∧
      (plansNext mode phase selected).pb.contract = some { contract .free with modeIndex := mode } ∧
      (plansNext mode phase selected).pb.phase = phase ∧ (plansNext mode phase selected).pb.selected = selected) ∧
    ((withPipe .p0 (plansNext 1 .staged none) 196640).selection .p0).modeIndex = 1 ∧
    ((withPipe .p0 (plansNext 2 .staged none) 196640).selection .p0).modeIndex ≠ 2 ∧ Phase.selected ≠ .staged ∧
    (contract .free).modeIndex = ({ contract .free with modeIndex := 1 } : Contract).modeIndex ∧
    (contract .free).modeIndex ≠ ({ contract .free with modeIndex := 2 } : Contract).modeIndex :=
  ⟨fun _ _ _ => ⟨(runs_reach .free).2.2.1, rfl, rfl, rfl⟩, by decide, by decide, by decide, by decide, by decide⟩

/-- A LIST of 18 records is malformed, one of 19 is not received. -/
theorem test_long_lists :
    ((after (.list .p0 (List.replicate 18 lowest)) (withPipe .p0 (link .probing) 0)).pipe .p0).lc.malformedSeen = true ∧
    ((after (.list .p0 (List.replicate 19 lowest)) (withPipe .p0 (link .probing) 0)).pipe .p0).lc.malformedSeen = false :=
  by decide +kernel

/-- A pipe whose trim line ends now, and one whose stretch reaches its limit now. -/
def ends (c : Cadence) : PipeState := { runs c 5 with fr := { (runs c 5).fr with trimEnd := some 200000 } }

theorem witness_FramesEndByCadence :
    (∀ c, (withPipe .p1 (ends c) 200000).peersApart ∧ (ends c).pb.contract = some (contract c) ∧
      ((∃ pl k a n, (ends c).fr.inSlot pl k (.trim a n)) ∧ (ends c).fr.trimEnd = some 200000)) ∧
    ((contract .relaxed).cadence = .relaxed ∧ (contract .relaxed).f < (contract .relaxed).fr ∧
      (ends .relaxed).fr.pullIn = false) ∧
    (contract .free).cadence ≠ .relaxed ∧
    (let x := { waits .relaxed .stretch with
        fr := { (waits .relaxed .stretch).fr with stretchLimit := some 300000 } }
     x.fr.state = .stretch ∧ x.fr.stretchLimit = some 300000) ∧
    (let b := { (ends .relaxed).pb with phase := .selected, selected := some { contract .relaxed with modeIndex := 2 } }
     b.modeChangeWaiting = true) ∧
    (let x := { waits .relaxed .stretch with pb :=
        { (waits .relaxed .stretch).pb with phase := .selected, selected := some { contract .relaxed with modeIndex := 2 } } }
     x.pb.modeChangeWaiting = true ∧ x.fr.state = .stretch) := by
  refine ⟨fun c => ⟨?_, rfl, ⟨plan, 4, 199073, 927, rfl, rfl, rfl, rfl⟩, rfl⟩, by decide, by decide, by decide, by decide, by decide⟩
  cases c <;> (unfold State.peersApart PlanBuilder.holdsPeer; decide)

/-- 3, R52: a RELAXED frame with a mode change waiting stretches at its trim line's end, and at the stretch's limit the link
enters SELECTING. -/
theorem test_stretch_before_mode_change :
    let waiting := fun x : PipeState => { x with pb :=
      { x.pb with phase := .selected, selected := some { contract .relaxed with modeIndex := 2 } } }
    ((after (.trimEnd .p1) (withPipe .p1 (waiting (ends .relaxed)) 200000)).pipe .p1).fr.state = .stretch ∧
    ((after (.stretchLimit .p1) (withPipe .p1 (waiting { waits .relaxed .stretch with
      fr := { (waits .relaxed .stretch).fr with stretchLimit := some 300000 } }) 300000)).pipe .p1).lc.state = .selecting := by
  decide +kernel

/-! The reference and the lock. -/

/-- Both pipes as given, with a reference unit, at 1,333,334. -/
def referred (x y : PipeState) (ref : RefUnit) : State :=
  { up with pipes := ⟨x, y⟩, ref := ref, time := 1333334 }

def internalNow : RefUnit := { RefUnit.reset with genPhase := some 1333334 }

def externalAt (pulse : Word) : RefUnit := { RefUnit.reset with source := .external, lastPulse := some pulse }

/-- An edge is early less than 333,333 TU after the last pulse: at 1,000,002 it was not, at 1,000,001 it was. -/
theorem witness_ReferencePulsesReachTheirPipes :
    (∀ x ∈ [link .off, aligns none none], ∀ y ∈ [link .off, aligns none none], ∀ r ∈ [internalNow, externalAt 5],
      (referred x y r).peersApart) ∧
    ((aligns none none).follows .lockedRef = true ∧ (aligns none none).startsOnPulse = true) ∧
    (link .off).follows .lockedRef = false ∧
    (internalNow.source = .internal ∧ internalNow.genPhase = some 1333334) ∧
    ((externalAt 1000001).source = .external ∧ ¬ ((1333334 : Word) - 1000001).toNat < (externalAt 0).fref / 2) ∧
    ((1333334 : Word) - 1000002).toNat < (externalAt 0).fref / 2 := by
  unfold State.peersApart PlanBuilder.holdsPeer
  decide +kernel

/-- A pulse at 1,333,334 is recent for F 200,000 through 1,733,334 and not after. -/
theorem test_recent_pulse_lies_within_two_frames :
    let s := fun now : Word => { referred (link .off) (link .off) (externalAt 1333334) with time := now }
    (s 1733334).recentPulse .p0 (contract .lockedRef) = some 1333334 ∧
    (s 1733335).recentPulse .p0 (contract .lockedRef) = none ∧
    (s 1733334).recentPulse .p0 (contract .free) = none := by decide

/-- A pipe in SEEKING or LOCKED with its silence start at 0. -/
def silent (c : Cadence) (l : LockState) : PipeState :=
  { runs c 1 with lock := { LockCtl.reset with state := l, silenceStart := some 0 } }

theorem witness_SilentSourcesAreGivenUp :
    ((externalAt 0).source = .external ∧ (externalAt 0).present = true ∧ (externalAt 0).lastPulse = some 0 ∧
      tuAfter 0 (2 * (externalAt 0).fref) = (referred (link .off) (link .off) (externalAt 0)).time) ∧
    (∀ c, (silent c .seeking).lock.state = .seeking ∧ (silent c .locked).lock.state = .locked ∧
      (silent c .locked).pb.contract = some (contract c) ∧ (silent c .locked).lock.silenceStart = some 0) ∧
    ((contract .lockedRef).cadence = .lockedRef ∧ 2 * (externalAt 0).fref ≤ ((1333334 : Word) - 0).toNat) ∧
    (contract .lockedPeer).cadence = .lockedPeer ∧ 2 * (contract .lockedPeer).f ≤ ((400000 : Word) - 0).toNat :=
  ⟨by decide, fun _ => ⟨rfl, rfl, rfl, rfl⟩, by decide, by decide⟩

theorem witness_TrimFollowsThePhaseError :
    0 < (contract .lockedRef).f ∧ (contract .lockedRef).hmin ≤ (contract .lockedRef).h ∧
    ¬ ((LockCtl.reset.state = .seeking ∨ LockCtl.reset.state = .locked) ∧ LockCtl.reset.measured = true) ∧
    (let l := { LockCtl.reset with state := .locked, measured := true }
     (l.state = .seeking ∨ l.state = .locked) ∧ l.measured = true) := by decide

/-! The bank, the surfaces and the reports. -/

/-- A request of each surface. -/
def asks : Surface → BankRequest
  | .s0 => { expiry := 0, particulars := .window 3000 1 1 true }
  | .s1 => { expiry := 0, particulars := .pad 4 }

/-- The part with its bank as given. -/
def banked (b : Bank) : State := { up with bank := b }

theorem witness_PadRequestsArriveAndExpire :
    (let t : PadTimer := { running := true, nextTick := some 0, tickCount := 0 }
     t.running = true ∧ t.nextTick = some (banked Bank.reset).time) ∧
    (∀ k, ({ Bank.reset with waiting := Bank.reset.waiting.set k (some (asks k)) } : Bank).waiting.get k = some (asks k) ∧
      (asks k).expiry = (banked Bank.reset).time) :=
  ⟨⟨rfl, rfl⟩, fun k => by cases k <;> exact ⟨rfl, rfl⟩⟩

/-- The bank in the last TU of a retune for a surface, or in a scan of it. -/
def busy (m : BankMode) (k : Surface) (r : Option BankRequest) : Bank :=
  { Bank.reset with mode := m, surface := k, granted := r, retuneEnd := 0, scanEnd := 0, scanRows := 2 }

theorem busy_safe (m : BankMode) (k : Surface) (r : Option BankRequest) (h : m = .retuning ∨ (m = .scanning ∧ r.isSome = true))
    (hk : ∀ x, r = some x → x.surface = k) : (banked (busy m k r)).bankSafe :=
  ⟨hk, fun hm => by rcases h with rfl | ⟨rfl, -⟩ <;> exact (nomatch hm),
   fun hm => by rcases h with rfl | ⟨-, hr⟩; exacts [(nomatch hm), hr], fun f x hx => by cases f <;> exact nomatch hx⟩

/-- A window that ends at 3,000 holds two rows of 1,500 from 0 on, one that ends now none. -/
theorem witness_RetunesEndInAScan :
    (∀ r ∈ [some (asks .s0), none], (banked (busy .retuning .s0 r)).bankSafe ∧
      (banked (busy .retuning .s0 r)).bank.mode = .retuning ∧ (banked (busy .retuning .s0 r)).bank.retuneEnd = 0 ∧
      (banked (busy .retuning .s0 r)).bank.granted = r) ∧
    (banked Bank.reset).scanRowCount (asks .s0) = 2 ∧
    (banked Bank.reset).scanRowCount { expiry := 0, particulars := .window 0 1 1 true } = 0 ∧
    (banked Bank.reset).scanRowCount { expiry := 0, particulars := .window (-1) 1 1 true } = 0 := by
  refine ⟨fun r hr => ⟨busy_safe _ _ _ (.inl rfl) fun x hx => ?_, rfl, rfl, rfl⟩, by decide, by decide, by decide⟩
  have h2 : r = some (asks .s0) ∨ r = none := by simpa using hr
  rcases h2 with rfl | rfl
  · obtain rfl : asks .s0 = x := by injection hx
    rfl
  · exact nomatch hx

theorem witness_ScansDeliverTheirRows : ∀ k : Surface,
    (banked (busy .scanning k (some (asks k)))).bankSafe ∧ (busy .scanning k (some (asks k))).mode = .scanning ∧
    (busy .scanning k (some (asks k))).scanEnd = (banked Bank.reset).time ∧
    (busy .scanning k (some (asks k))).granted = some (asks k) := by
  refine fun k => ⟨busy_safe _ _ _ (.inr ⟨rfl, rfl⟩) fun x hx => ?_, rfl, rfl, rfl⟩
  obtain rfl : asks k = x := by injection hx
  cases k <;> rfl

/-- A scan that fills a frame from cursor 0, which the writer takes at once, leaves every field of the surface record as
it was: the record is rewritten all the same (R149, R162, R168). -/
theorem test_scan_rewrites_its_surface_record :
    let x := { up.surf .s1 with geo := { (up.surf .s1).geo with rows := 1, cols := 1 } }
    let s := { (banked { busy .scanning .s1 (some (asks .s1)) with scanRows := 1 }).withSurf .s1 x with
      rpw := { up.rpw with freeList := [0] } }
    let t := after (.scanCompletion [7]) s
    t.rpw.writer.isSome = true ∧ t.surfaceView .s1 = s.surfaceView .s1 ∧
    (t.surf .s1).version = (s.surf .s1).version + 1 ∧ (t.surf .s0).version = (s.surf .s0).version := by decide +kernel

theorem witness_RowsFillTouchFrames :
    (up.surf .s1).cursor + 1 < (up.surf .s1).geo.rows ∧
    (let x := { up.surf .s1 with cursor := 7 }; x.geo.rows ≤ x.cursor + 1) := by decide

/-- A write into block 15 that ends now, of the largest frame: 64 rows of 16 values. -/
def largest : WriteJob :=
  { block := 15, skippedBefore := 0, startedAt := 0, endsAt := 0,
    frame := { surface := .s0, firstRow := 0, completed := 0, rows := 64, cols := 16, used := 8, lost := 0, noisyRows := 0,
               pipe1Frame := 0, joined := 0,
               rowData := List.replicate 64
                 { offset := 0, windowIndex := 0, noisy := false, nodes := List.replicate 16 0xFFFF } } }

theorem witness_WritesFillTheBlock :
    ({ up.rpw with writer := some largest } : ReportWriter).writer = some largest ∧ largest.endsAt = up.time ∧
    largest.frame.rowData.length ≤ 64 ∧ (largest.frame.rowData.flatMap (·.nodes)).length = 1024 :=
  ⟨rfl, rfl, by decide +kernel, by decide +kernel⟩

/-- A report part-written stands in whole words: 3 words of the header are its first 12 bytes (R187). -/
theorem test_reports_are_written_by_words :
    (largest.writePart 3 []).readBytes 0xB604 44 = largest.header.take 12 ++ List.replicate 32 0 ∧
    largest.size = 11 + 96 + 512 := by decide +kernel

/-- The part with each pin at a source, a pulse source in its last TU. -/
def pinned (src : PinSource) : State := { up with pins := Vector.replicate 4 { source := src, pulseEnd := some 0 } }

theorem witness_PulsesEndAndLevelsFollow : ∀ (src : PinSource) (k : Fin 4),
    (pinned src).pins[k].pulseEnd = some (pinned src).time ∧ (pinned src).pins[k].source = src := by
  intro src k
  simp [pinned, up, State.reset]

/-- A pulse source's pin is high while its pulse end is present, and low without one. -/
theorem test_pulse_pins_are_high_for_their_pulse :
    (pinned .reference).pinLevel 3 = true ∧ (pinned (.frameStart .p1)).pinLevel 0 = true ∧
    ({ up with pins := Vector.replicate 4 { source := .reference, pulseEnd := none } } : State).pinLevel 3 = false := by
  decide

/-! Contracts and plans. -/

/-- 3, Worked selection walk: offer 2 on mode 2 fits, and no pair before it. -/
theorem witness_SelectionTakesTheFirstFit :
    let s := walk walkOffers
    let x := s.pipe .p1
    ∃ o0 o m0 m, x.pb.offers[0]? = some o0 ∧ x.pb.offers[1]? = some o ∧ x.lc.modes[0]? = some m0 ∧
      x.lc.modes[1]? = some m ∧ s.pairFits .p1 o m ∧ ¬ s.pairFits .p1 o m0 ∧ ¬ s.pairFits .p1 o0 m0 ∧
      ¬ s.pairFits .p1 o0 m := by
  refine ⟨_, _, _, _, rfl, rfl, rfl, rfl, ⟨by decide, fun h => (nomatch h), ⟨fun h => (nomatch h), fun h => (nomatch h)⟩,
    by decide, by decide, by decide⟩, fun h => ?_, fun h => ?_, fun h => ?_⟩
  · exact absurd h.2.2.2.2.1 (by decide)
  · exact absurd (h.2.2.1.1 rfl) (by decide)
  · exact absurd (h.2.2.1.1 rfl) (by decide)

/-- The walk with offer 1 alone, and with none. -/
theorem witness_NothingFitsGivesTheFallback : ∀ offers ∈ [walkOffers.take 1, []],
    ∃ m rest, ((walk offers).pipe .p1).lc.modes = m :: rest ∧
      (∀ o ∈ ((walk offers).pipe .p1).pb.offers, ∀ m' ∈ ((walk offers).pipe .p1).lc.modes,
        ¬ (walk offers).pairFits .p1 o m') ∧
      240 ≤ m.v.toNat ∧ 4 ≤ m.vb.toNat ∧ 100 ≤ m.hmin.toNat ∧ m.hmin.toNat ≤ 4000 := by
  intro offers h
  refine ⟨_, _, rfl, fun o ho m' _ hf => ?_, by decide, by decide, by decide, by decide⟩
  have h2 : offers = walkOffers.take 1 ∨ offers = [] := by simpa using h
  rcases h2 with rfl | rfl
  · have h3 : o = walkOffers.head (by decide) := by
      simpa [walk, State.withPipe, State.pipe, PerPipe.get, PerPipe.set, walkOffers] using ho
    subst h3
    exact absurd (hf.2.2.1.1 rfl) (by decide)
  · exact nomatch ho

theorem witness_PlanSumsToTheFrame : ∀ c ∈ [eightWindows, contract .free, { eightWindows with w := 0, lw := 0, f := 570667 }],
    c.n = c.v + c.vb ∧ 240 ≤ c.v ∧ 4 ≤ c.vb ∧ c.w ≤ 16 ∧ c.f = c.w * c.lw + c.n * c.h + c.q ∧ 1 ≤ c.hmin ∧
    c.hmin ≤ c.h := by decide

/-- Windows 2 and 3 of the quiet span case: shifted by 13 lines, and noisy. -/
theorem witness_WindowsShiftPastQuietSpans :
    (placeWindow [⟨130000, 140000⟩, ⟨210000, 226000⟩] 20 12000 385 135200 160).noisy = false ∧
    (placeWindow [⟨130000, 140000⟩, ⟨210000, 226000⟩] 20 12000 385 208800 160).noisy = true := by decide +kernel

/-! What every step keeps. -/

theorem witness_PipesLeaveEachOtherAlone : ∀ p : Pipe,
    (calm.pipe (otherPipe p)).follows .lockedPeer = false ∧ (∃ t, exec (.nak p) calm = .next t) ∧
    ∃ t, exec (.panelFault p 9) calm = .next t :=
  fun p => ⟨by cases p <;> rfl, ⟨_, rfl⟩, ⟨_, rfl⟩⟩

theorem witness_StepsKeepMemoryForm : calm.mem.wf ∧ ∃ t, step calm = .next t := ⟨calm_safe.1, ⟨_, rfl⟩⟩

/-- For the four invariants of the cells, the pipes, the bank and bounds, the blocks and the records. -/
theorem witness_steps_from_safe_states : calm.safe ∧ ∃ t, step calm = .next t := ⟨calm_safe, ⟨_, rfl⟩⟩

theorem witness_RecordVersionsCountChanges :
    ((Instr.nak .p0).resets = false ∧ Instr.nak .p0 ≠ .initialisationCompletion ∧ ∃ t, exec (.nak .p0) calm = .next t) ∧
    (∀ p, (taking (request 0x04 (pipeNumber p) []) up).takes 0x04 (request 0x04 (pipeNumber p) []) ∧
      (request 0x04 (pipeNumber p) []).targetsPipe p) ∧
    (∀ k, let s := banked (busy .scanning k (some (asks k)))
      s.bank.mode = .scanning ∧ s.bank.scanEnd = s.time ∧ s.bank.granted = some (asks k) ∧ (asks k).surface = k) :=
  ⟨⟨by decide, by decide, _, rfl⟩,
   fun p => ⟨takes_request _ _ _ (by cases p <;> decide +kernel),
     by unfold RequestRecord.targetsPipe; cases p <;> decide +kernel⟩,
   fun k => ⟨rfl, rfl, rfl, by cases k <;> rfl⟩⟩

/-- The same state with a panel's message waiting instead of a host write: no rule of a safe state reads the queue. -/
theorem witness_PartLeavesHostMemoryAlone :
    let s := { calm with pending := [.panelFault .p0 9] }
    s.safe ∧ (∃ t, step s = .next t) ∧
    (∀ c, s.pending.head? = some c → c.portWrite = none ∧ c ≠ .powerOnReset) ∧
    s.cells[(15 : Fin 16)] = .hostOwned :=
  ⟨calm_safe, ⟨_, rfl⟩, fun c hc => by obtain rfl : Instr.panelFault .p0 9 = c := by injection hc
                                       decide, by decide⟩

theorem witness_FlagsStayUntilCleared :
    (Instr.noticeMaskWrite 1).resets = false ∧ (∃ t, exec (.noticeMaskWrite 1) calm = .next t) ∧
    (∀ a v, (Instr.noticeMaskWrite 1).portWrite = some (a, v) → portTarget (alignWord a) ≠ .notice) ∧
    Instr.noticeMaskWrite 1 ≠ .clearFaults :=
  ⟨by decide, ⟨_, rfl⟩, fun a v h => by
    obtain ⟨rfl, -⟩ : 0x10008 = a ∧ (1 : Word) = v := by simpa [Instr.portWrite] using h
    decide, by decide⟩

end Sys2Proof.Tests
end

section
/-! PROOF. Where the requests are: handing over moves cells, and no cell is lost or doubled. -/

namespace Sys2Proof.Machine

/-- The cells of the completions that owners hand over. -/
def cellsOf (owners : List (List Completion)) : Multiset (Fin 16) := ↑(owners.flatten.map (·.cell))

@[simp] theorem cellsOf_nil : cellsOf [] = 0 := rfl

@[simp] theorem cellsOf_cons (g : List Completion) (gs : List (List Completion)) :
    cellsOf (g :: gs) = ↑(g.map (·.cell)) + cellsOf gs := by simp [cellsOf]

@[simp] theorem cellsOf_append (xs ys : List (List Completion)) : cellsOf (xs ++ ys) = cellsOf xs + cellsOf ys := by
  simp [cellsOf]

/-- The order of the owners moves no cell. -/
theorem cellsOf_perm {xs ys : List (List Completion)} (h : xs.Perm ys) : cellsOf xs = cellsOf ys :=
  Multiset.coe_eq_coe.2 (h.flatten.map _)

/-- The cells the Request Intake holds behind its intake queue: the engine's, and those of waiting completions. -/
def Rqi.held (x : Rqi) : Multiset (Fin 16) := ↑(x.engine.cells) + ↑(x.completions.map (·.cell))

/-- The cells of all requests that have left the intake queue. -/
def State.held (s : State) : Multiset (Fin 16) :=
  s.rqi.held + ↑(s.pipes.p0.parkedCells) + ↑(s.pipes.p1.parkedCells)

theorem State.held_eq (s : State) : s.held = ↑(s.rqi.engine.cells) + ↑(s.waitingCells) := by
  simp [State.held, Rqi.held, State.waitingCells, Multiset.coe_add, List.append_assoc]

/-- Serving a completion moves its cell into the engine. -/
theorem Rqi.served_held (x : Rqi) (now : Word) : (x.served now).held = x.held := by
  unfold Rqi.served
  split
  next he hc => simp [Rqi.held, he, hc, Engine.cells]
  next => rfl

theorem Rqi.served_intake (x : Rqi) (now : Word) : (x.served now).intake = x.intake := by
  unfold Rqi.served; split <;> rfl

/-- An engine at work keeps its cell. -/
theorem Rqi.served_engine (x : Rqi) (now : Word) :
    (x.engine.cells : Multiset (Fin 16)) ≤ (x.served now).engine.cells := by
  unfold Rqi.served
  split
  next he _ => simp [he, Engine.cells]
  next => exact le_refl _

/-- What the owners hand over joins what the Request Intake holds. -/
theorem HandedOver.held {x y : Rqi} {now : Word} {owners : List (List Completion)} (h : HandedOver x now owners y) :
    y.held = x.held + cellsOf owners := by
  unfold HandedOver at h
  split at h
  next he => simp [h, cellsOf, he]
  next =>
    obtain ⟨order, hp, rfl⟩ := h
    rw [Rqi.served_held, ← cellsOf_perm hp]
    simp [Rqi.held, cellsOf]

theorem HandedOver.intake {x y : Rqi} {now : Word} {owners : List (List Completion)} (h : HandedOver x now owners y) :
    y.intake = x.intake := by
  unfold HandedOver at h
  split at h
  next => rw [h]
  next => obtain ⟨order, -, rfl⟩ := h; exact Rqi.served_intake _ _

theorem HandedOver.engine {x y : Rqi} {now : Word} {owners : List (List Completion)} (h : HandedOver x now owners y) :
    (x.engine.cells : Multiset (Fin 16)) ≤ y.engine.cells := by
  unfold HandedOver at h
  split at h
  next => rw [h]
  next => obtain ⟨order, -, rfl⟩ := h; exact Rqi.served_engine { x with completions := _ } _

/-! An ordinary event. -/

/-- Every flag set in `m` is set in `n`. -/
def Notices.keptIn (m n : Notices) : Prop :=
  (m.cell = true → n.cell = true) ∧ (m.report = true → n.report = true) ∧ (m.pipe = true → n.pipe = true) ∧
    (m.fault = true → n.fault = true)

theorem Notices.keptIn_refl (m : Notices) : m.keptIn m := ⟨id, id, id, id⟩

theorem Notices.keptIn_trans {l m n : Notices} (h : l.keptIn m) (h' : m.keptIn n) : l.keptIn n := by
  obtain ⟨c, r, p, f⟩ := h
  obtain ⟨c', r', p', f'⟩ := h'
  exact ⟨c' ∘ c, r' ∘ r, p' ∘ p, f' ∘ f⟩

/-- Every flag set in one of the fault sets of `s` is set in `t`. -/
def State.faultsKept (s t : State) : Prop :=
  (∀ p f, (s.pipe p).faults.get f = true → (t.pipe p).faults.get f = true) ∧
    ∀ k f, (s.surf k).faults.get f = true → (t.surf k).faults.get f = true

theorem State.faultsKept_refl (s : State) : s.faultsKept s := ⟨fun _ _ => id, fun _ _ => id⟩

theorem State.faultsKept_trans {s t u : State} (h : s.faultsKept t) (h' : t.faultsKept u) : s.faultsKept u :=
  ⟨fun p f => h'.1 p f ∘ h.1 p f, fun k f => h'.2 k f ∘ h.2 k f⟩

/-- What an event of the part may do to what the host relies on: of Work Memory it writes the status area and the plan
pages alone, it clears no flag, and the requests move on: the cells of what it has taken from its owners and not handed
over yet are `out`. -/
structure Ordinary (out : Multiset (Fin 16)) (s t : State) : Prop where
  cells  : t.cells = s.cells
  ready  : t.ready = s.ready
  intake : t.rqi.intake = s.rqi.intake
  /-- An engine at work keeps its cell. -/
  engine : (s.rqi.engine.cells : Multiset (Fin 16)) ≤ t.rqi.engine.cells
  held   : t.held + out = s.held
  form   : s.mem.wf → t.mem.wf
  far    : ∀ a, a < 0x1000 ∨ 0x2000 ≤ a → t.mem.read a = s.mem.read a
  notice : s.notice.keptIn t.notice
  faults : s.faultsKept t

namespace Ordinary

variable {o : Multiset (Fin 16)} {s t u : State}

theorem refl (s : State) : Ordinary 0 s s where
  cells := rfl
  ready := rfl
  intake := rfl
  engine := le_refl _
  held := add_zero _
  form := id
  far _ _ := rfl
  notice := s.notice.keptIn_refl
  faults := s.faultsKept_refl

theorem trans {o' : Multiset (Fin 16)} (h : Ordinary o s t) (h' : Ordinary o' t u) : Ordinary (o + o') s u where
  cells := h'.cells.trans h.cells
  ready := h'.ready.trans h.ready
  intake := h'.intake.trans h.intake
  engine := h.engine.trans h'.engine
  held := by rw [← h.held, ← h'.held, add_assoc, add_comm o]
  form := h'.form ∘ h.form
  far a ha := (h'.far a ha).trans (h.far a ha)
  notice := Notices.keptIn_trans h.notice h'.notice
  faults := State.faultsKept_trans h.faults h'.faults

theorem trans_zero (h : Ordinary o s t) (h' : Ordinary 0 t u) : Ordinary o s u := add_zero o ▸ h.trans h'

/-- A part of the state that no clause reads. -/
theorem same (h : Ordinary o s t) (hm : u.mem = t.mem) (hc : u.cells = t.cells) (hr : u.ready = t.ready)
    (hq : u.rqi = t.rqi) (hn : u.notice = t.notice) (hp : u.pipes = t.pipes) (hs : u.surfaces = t.surfaces) :
    Ordinary o s u := by
  refine h.trans_zero ⟨hc, hr, by rw [hq], by rw [hq], ?_, by rw [hm]; exact id, fun a _ => by rw [hm], ?_, ?_⟩
  · simp [State.held, hq, hp]
  · rw [hn]; exact t.notice.keptIn_refl
  · exact ⟨fun p f => by simp only [State.pipe, hp]; exact id, fun k f => by simp only [State.surf, hs]; exact id⟩

/-- A store into the status area and the plan pages. -/
theorem store (h : Ordinary o s t) (a : Nat) (bs : List Byte) (h1 : 0x1000 ≤ a) (h2 : a + bs.length ≤ 0x2000) :
    Ordinary o s { t with mem := t.mem.writeBytes a bs } :=
  h.trans_zero
    { refl t with
      form := fun hw => Memory.wf_writeBytes hw a bs (by omega)
      far := fun x hx => Memory.read_writeBytes_off _ a bs x (by omega) }

/-- Completions handed over reach the Request Intake. -/
theorem finish {x : Handing} (h : Ordinary (cellsOf x.2) s x.1) : Ordinary 0 s x.finish := by
  obtain ⟨q, n, he, ho⟩ := State.handOverGroups_spec x.1 x.2
  have hf : x.finish = { x.1 with rqi := q, free := n } := he
  rw [hf]
  exact { h with
    intake := ho.intake.trans h.intake
    engine := h.engine.trans ho.engine
    held := by
      have := h.held
      simp only [State.held] at this ⊢
      rw [ho.held, ← this]
      ac_rfl }

theorem serveCompletions (h : Ordinary o s t) : Ordinary o s t.serveCompletions := by
  rw [State.serveCompletions_eq]
  exact { h with
    intake := (Rqi.served_intake _ _).trans h.intake
    engine := h.engine.trans (Rqi.served_engine _ _)
    held := by
      have := h.held
      simp only [State.held] at this ⊢
      rw [Rqi.served_held, ← this] }

/-! Updates of a pipe's and a surface's blocks. -/

/-- A pipe's blocks change: `o'` is what its parked requests lose. -/
theorem modPipe {o' : Multiset (Fin 16)} (h : Ordinary o s t) (p : Pipe) (g : PipeState → PipeState)
    (hc : (↑(g (t.pipe p)).parkedCells + o' : Multiset (Fin 16)) = ↑(t.pipe p).parkedCells)
    (hf : ∀ f, (t.pipe p).faults.get f = true → (g (t.pipe p)).faults.get f = true) :
    Ordinary (o + o') s (t.modPipe p g) := by
  refine h.trans { refl t with held := ?_, faults := ⟨fun q f => ?_, fun _ _ => id⟩ }
  · cases p <;> simp only [State.held, State.modPipe, State.pipe, PerPipe.get, PerPipe.set] at hc ⊢ <;> rw [← hc] <;>
      ac_rfl
  · cases p <;> cases q
    · exact hf f
    · exact id
    · exact id
    · exact hf f

theorem modPipe_same (h : Ordinary o s t) (p : Pipe) (g : PipeState → PipeState)
    (hc : (g (t.pipe p)).parkedCells = (t.pipe p).parkedCells) (hf : (g (t.pipe p)).faults = (t.pipe p).faults) :
    Ordinary o s (t.modPipe p g) := by
  have := h.modPipe (o' := 0) p g (by rw [hc, add_zero]) fun f => by rw [hf]; exact id
  rwa [add_zero] at this

theorem modLc (h : Ordinary o s t) (p : Pipe) (g : LinkCtl → LinkCtl)
    (hg : (g (t.pipe p).lc).parkedAdmit = (t.pipe p).lc.parkedAdmit) : Ordinary o s (t.modLc p g) :=
  h.modPipe_same p _ (by simp only [PipeState.parkedCells, hg]) rfl

theorem modPb (h : Ordinary o s t) (p : Pipe) (g : PlanBuilder → PlanBuilder)
    (hg : (g (t.pipe p).pb).negotiate = (t.pipe p).pb.negotiate) : Ordinary o s (t.modPb p g) :=
  h.modPipe_same p _ (by simp only [PipeState.parkedCells, hg]) rfl

theorem modFr (h : Ordinary o s t) (p : Pipe) (g : Runner → Runner)
    (hg : (g (t.pipe p).fr).frameNow = (t.pipe p).fr.frameNow)
    (hb : (g (t.pipe p).fr).bands.map (·.request.cell) = (t.pipe p).fr.bands.map (·.request.cell)) :
    Ordinary o s (t.modFr p g) :=
  h.modPipe_same p _ (by simp only [PipeState.parkedCells, hg, hb]) rfl

theorem modLock (h : Ordinary o s t) (p : Pipe) (g : LockCtl → LockCtl) : Ordinary o s (t.modLock p g) :=
  h.modPipe_same p _ rfl rfl

theorem modSurf (h : Ordinary o s t) (k : Surface) (g : SurfaceState → SurfaceState)
    (hf : ∀ f, (t.surf k).faults.get f = true → (g (t.surf k)).faults.get f = true) : Ordinary o s (t.modSurf k g) := by
  refine h.trans_zero { refl t with faults := ⟨fun _ _ => id, fun j f => ?_⟩ }
  cases k <;> cases j
  · exact hf f
  · exact id
  · exact id
  · exact hf f

theorem modBank (h : Ordinary o s t) (g : Bank → Bank) : Ordinary o s (t.modBank g) :=
  h.same rfl rfl rfl rfl rfl rfl rfl

theorem modRef (h : Ordinary o s t) (g : RefUnit → RefUnit) : Ordinary o s (t.modRef g) :=
  h.same rfl rfl rfl rfl rfl rfl rfl

theorem modRpw (h : Ordinary o s t) (g : ReportWriter → ReportWriter) : Ordinary o s (t.modRpw g) :=
  h.same rfl rfl rfl rfl rfl rfl rfl

theorem pulsePins (h : Ordinary o s t) (src : PinSource) : Ordinary o s (t.pulsePins src) :=
  h.same rfl rfl rfl rfl rfl rfl rfl

theorem draw (h : Ordinary o s t) : Ordinary o s (t.draw).2 := h.same rfl rfl rfl rfl rfl rfl rfl

/-! Notices and faults. -/

theorem noticeReport (h : Ordinary o s t) : Ordinary o s t.noticeReport :=
  h.trans_zero { refl t with notice := ⟨id, fun _ => rfl, id, id⟩ }

theorem noticePipe (h : Ordinary o s t) : Ordinary o s t.noticePipe :=
  h.trans_zero { refl t with notice := ⟨id, id, fun _ => rfl, id⟩ }

theorem noticeFault (h : Ordinary o s t) : Ordinary o s t.noticeFault :=
  h.trans_zero { refl t with notice := ⟨id, id, id, fun _ => rfl⟩ }

end Ordinary

@[simp] theorem PipeFaults.get_put (x : PipeFaults) (f g : PipeFault) :
    (x.put f).get g = (decide (g = f) || x.get g) := by cases f <;> cases g <;> rfl

@[simp] theorem SurfaceFaults.get_put (x : SurfaceFaults) (f g : SurfaceFault) :
    (x.put f).get g = (decide (g = f) || x.get g) := by cases f <;> cases g <;> rfl

namespace Ordinary

variable {o : Multiset (Fin 16)} {s t : State}

theorem raisePipeFault (h : Ordinary o s t) (p : Pipe) (f : PipeFault) : Ordinary o s (t.raisePipeFault p f) := by
  unfold State.raisePipeFault
  split
  · exact h
  · have := h.modPipe (o' := 0) p (fun x => { x with faults := x.faults.put f }) (add_zero _)
      fun g hg => by simp [hg]
    rw [add_zero] at this
    exact this.noticeFault

theorem raiseSurfaceFault (h : Ordinary o s t) (k : Surface) (f : SurfaceFault) :
    Ordinary o s (t.raiseSurfaceFault k f) := by
  unfold State.raiseSurfaceFault
  split
  · exact h
  · exact (h.modSurf k _ fun g hg => by simp [hg]).noticeFault

/-! Status records. -/

theorem rewritePipe (h : Ordinary o s t) (p : Pipe) : Ordinary o s (t.rewritePipe p) :=
  (h.modPipe_same p (fun x => { x with version := x.version + 1 }) rfl rfl).store _ _ (by cases p <;> decide)
    (by rw [State.pipeRecord_length]; cases p <;> decide)

theorem rewriteSurface (h : Ordinary o s t) (k : Surface) : Ordinary o s (t.rewriteSurface k) :=
  (h.modSurf k (fun x => { x with version := x.version + 1 }) fun _ => id).store _ _ (by cases k <;> decide)
    (by rw [State.surfaceRecord_length]; cases k <;> decide)

theorem rewriteBank (h : Ordinary o s t) : Ordinary o s t.rewriteBank :=
  (h.modBank fun b => { b with version := b.version + 1 }).store _ _ (by decide)
    (by rw [Bank.bytes_length]; decide)

theorem rewriteRef (h : Ordinary o s t) : Ordinary o s t.rewriteRef :=
  (h.modRef fun r => { r with version := r.version + 1 }).store _ _ (by decide)
    (by rw [RefUnit.bytes_length]; decide)

theorem publish (h : Ordinary o s t) (w : State) : Ordinary o s (publish w t) := by
  have pipe : ∀ {v}, Ordinary o s v → ∀ p, Ordinary o s (publishPipe w p v) := fun hv p => by
    unfold publishPipe; split
    · exact hv
    · exact hv.rewritePipe p
  have surface : ∀ {v}, Ordinary o s v → ∀ k, Ordinary o s (publishSurface w k v) := fun hv k => by
    unfold publishSurface; split
    · exact hv
    · exact hv.rewriteSurface k
  have bank : ∀ {v}, Ordinary o s v → Ordinary o s (publishBank w v) := fun hv => by
    unfold publishBank; split
    · exact hv
    · exact hv.rewriteBank
  have ref : ∀ {v}, Ordinary o s v → Ordinary o s (publishRef w v) := fun hv => by
    unfold publishRef; split
    · exact hv
    · exact hv.rewriteRef
  exact ref (bank (surface (surface (pipe (pipe h .p0) .p1) .s0) .s1))

theorem pipeRewritten (h : Ordinary o s t) (w : State) (p : Pipe) : Ordinary o s (t.pipeRewritten w p) := by
  unfold State.pipeRewritten
  split
  · exact h.rewritePipe p
  · exact h

theorem surfaceRewritten (h : Ordinary o s t) (w : State) (k : Surface) : Ordinary o s (t.surfaceRewritten w k) := by
  unfold State.surfaceRewritten
  split
  · exact h.rewriteSurface k
  · exact h

/-! Links, locks and messages. -/

theorem setLink (h : Ordinary o s t) (p : Pipe) (x : LinkState) : Ordinary o s (t.setLink p x) := by
  unfold State.setLink
  dsimp only
  split
  · exact h.modLc p _ rfl
  · exact (h.modLc p _ rfl).noticePipe

theorem setLock (h : Ordinary o s t) (p : Pipe) (g : LockCtl → LockCtl) : Ordinary o s (t.setLock p g) := by
  unfold State.setLock
  dsimp only
  split
  · exact h.modLock p g
  · exact (h.modLock p g).noticePipe

theorem sendMessage (h : Ordinary o s t) (p : Pipe) (m : TxMessage) (b : Bool) : Ordinary o s (t.sendMessage p m b) := by
  unfold State.sendMessage
  split
  · exact h.modLc p _ rfl
  · exact h.modLc p _ rfl

theorem emitMark (h : Ordinary o s t) (p : Pipe) (w : Word) : Ordinary o s (t.emitMark p w) := h.modFr p _ rfl rfl

theorem makePlan (h : Ordinary o s t) (p : Pipe) (n : Word) (c : Contract) : Ordinary o s (t.makePlan p n c) :=
  (h.modPb p _ rfl).store _ _ (by cases p <;> decide) (by rw [Plan.bytes_length]; cases p <;> decide)

theorem enterSelecting (h : Ordinary o s t) (p : Pipe) (c : Contract) : Ordinary o s (t.enterSelecting p c) :=
  (((h.setLink p _).setLock p _).modLc p _ rfl).sendMessage p _ _

theorem enterProbing (h : Ordinary o s t) (p : Pipe) : Ordinary o s (t.enterProbing p) :=
  ((h.setLink p _).modLc p _ rfl).sendMessage p _ _

theorem beginAdmission (h : Ordinary o s t) (p : Pipe) : Ordinary o s (t.beginAdmission p) :=
  (h.modPb p _ rfl).enterSelecting p _

theorem measureLock (h : Ordinary o s t) (p : Pipe) (c : Contract) : Ordinary o s (t.measureLock p c) := by
  unfold State.measureLock
  dsimp only
  split
  · exact (h.setLock p _).raisePipeFault p _
  · exact h.setLock p _

theorem measureIfFollowing (h : Ordinary o s t) (p : Pipe) (c : Contract) :
    Ordinary o s (t.measureIfFollowing p c) := by
  unfold State.measureIfFollowing
  split
  · exact h.measureLock p c
  · exact h.modLock p _

theorem loseSource (h : Ordinary o s t) (p : Pipe) (g : LockCtl → LockCtl) : Ordinary o s (t.loseSource p g) :=
  (h.setLock p _).raisePipeFault p _

theorem lockAtChange (h : Ordinary o s t) (p : Pipe) (old c : Contract) : Ordinary o s (t.lockAtChange p old c) := by
  unfold State.lockAtChange
  split
  · split
    · exact h.measureIfFollowing p c
    · split
      · exact (h.setLock p _).measureLock p c
      · exact h.loseSource p _
  · exact h.setLock p _

theorem lockAtFrameStart (h : Ordinary o s t) (p : Pipe) (how : StartKind) (old : Option Contract) :
    Ordinary o s (t.lockAtFrameStart p how old) := by
  have h' := h.modLock p fun l => { l with lastFrameStart := some t.time }
  unfold State.lockAtFrameStart
  cases how with
  | entry => exact h'.modLock p _
  | aligned => exact h'.setLock p _
  | deadline => exact h'.loseSource p _
  | next =>
    dsimp only
    split
    · exact h'.lockAtChange p _ _
    · exact h'.measureIfFollowing p _
    · exact h'

theorem takeLockPulse (h : Ordinary o s t) (p : Pipe) : Ordinary o s (t.takeLockPulse p) := h.setLock p _

theorem takePulse (h : Ordinary o s t) (p : Pipe) : Ordinary o s (t.takePulse p).1 := by
  unfold State.takePulse
  dsimp only
  split
  · exact (h.takeLockPulse p).modFr p (fun r => { r with alignedStart := some _, alignDeadline := none }) rfl rfl
  · exact h.takeLockPulse p

theorem takeRefPulse (h : Ordinary o s t) (p : Pipe) : Ordinary o s (t.takeRefPulse p).1 := by
  unfold State.takeRefPulse
  split
  · exact h.takePulse p
  · exact h

theorem releaseSlot (h : Ordinary o s t) (p : Pipe) (x : Option Slot) : Ordinary o s (t.releaseSlot p x) := by
  unfold State.releaseSlot
  split
  · exact h.emitMark p _
  · exact h

theorem announceFrame (h : Ordinary o s t) (p : Pipe) : Ordinary o s (t.announceFrame p) :=
  (h.modLc p _ rfl).sendMessage p _ _

theorem nextSlot (h : Ordinary o s t) (p : Pipe) : Ordinary o s (t.nextSlot p) := h.modFr p _ rfl rfl

end Ordinary

end Sys2Proof.Machine
end

section
/-! PROOF. The operations that take parked requests from their owners, and the event that hands them over. -/

namespace Sys2Proof.Machine

/-- The cell of a parked request, if one is parked. -/
def parkedCell (r : Option Parked) : Multiset (Fin 16) := ↑(r.toList.map (·.cell))

@[simp] theorem parkedCell_none : parkedCell none = 0 := rfl
@[simp] theorem parkedCell_some (r : Parked) : parkedCell (some r) = {r.cell} := rfl

/-- The cells of the requests of pending bands. -/
def bandCells (bs : List Band) : Multiset (Fin 16) := ↑(bs.map (·.request.cell))

theorem PipeState.parkedCells_coe (x : PipeState) : (↑x.parkedCells : Multiset (Fin 16)) =
    parkedCell x.lc.parkedAdmit + parkedCell x.pb.negotiate + (parkedCell x.fr.frameNow + bandCells x.fr.bands) := by
  simp [PipeState.parkedCells, parkedCell, bandCells, List.append_assoc]

@[simp] theorem Parked.complete_cell (r : Parked) (st : Status) (ws : List Word) : (r.complete st ws).cell = r.cell := rfl

@[simp] theorem abortedOf_cells (r : Option Parked) :
    (↑((abortedOf r).map (·.cell)) : Multiset (Fin 16)) = parkedCell r := by cases r <;> rfl

@[simp] theorem bands_cells (bs : List Band) (f : Band → Completion) (hf : ∀ b, (f b).cell = b.request.cell) :
    (↑((bs.map f).map (·.cell)) : Multiset (Fin 16)) = bandCells bs := by
  simp only [bandCells, List.map_map, Function.comp_def, hf]

namespace Ordinary

variable {o o' : Multiset (Fin 16)} {s t : State}

theorem out (h : Ordinary o s t) (e : o = o') : Ordinary o' s t := e ▸ h

theorem modLc_take (h : Ordinary o s t) (p : Pipe) (g : LinkCtl → LinkCtl)
    (hg : parkedCell (g (t.pipe p).lc).parkedAdmit + o' = parkedCell (t.pipe p).lc.parkedAdmit) :
    Ordinary (o + o') s (t.modLc p g) :=
  h.modPipe p _ (by simp only [PipeState.parkedCells_coe, ← hg]; ac_rfl) fun _ => id

theorem modPb_take (h : Ordinary o s t) (p : Pipe) (g : PlanBuilder → PlanBuilder)
    (hg : parkedCell (g (t.pipe p).pb).negotiate + o' = parkedCell (t.pipe p).pb.negotiate) :
    Ordinary (o + o') s (t.modPb p g) :=
  h.modPipe p _ (by simp only [PipeState.parkedCells_coe, ← hg]; ac_rfl) fun _ => id

theorem modFr_take (h : Ordinary o s t) (p : Pipe) (g : Runner → Runner)
    (hg : parkedCell (g (t.pipe p).fr).frameNow + bandCells (g (t.pipe p).fr).bands + o' =
      parkedCell (t.pipe p).fr.frameNow + bandCells (t.pipe p).fr.bands) :
    Ordinary (o + o') s (t.modFr p g) :=
  h.modPipe p _ (by simp only [PipeState.parkedCells_coe, ← hg]; ac_rfl) fun _ => id

end Ordinary

/-! A frame start (R85 to R87). -/

/-- A frame start hands over the NEGOTIATE whose phase it ends, and no other. -/
theorem PlanBuilder.afterStart_cells (b : PlanBuilder) (how : StartKind) :
    parkedCell (b.afterStart how).negotiate + ↑((b.negotiateAt how).map (·.cell)) = parkedCell b.negotiate := by
  unfold PlanBuilder.afterStart PlanBuilder.negotiateAt
  cases hn : b.negotiate with
  | none =>
    cases b.installAt how with
    | some c => simp
    | none => dsimp only; split <;> simp
  | some r =>
    cases hi : b.installAt how with
    | some c => simp
    | none =>
      cases hc : b.contract with
      | none => simp
      | some c => by_cases hp : b.phase = .installed <;> simp [hp]

theorem Runner.afterStart_cells (r : Runner) (plan : Option Plan) (how : StartKind) (now : Word) :
    bandCells (r.afterStart plan how now).bands = bandCells r.bands := by
  simp [Runner.afterStart, bandCells, Band.serveBy, Function.comp_def]

theorem ordinary_startLocal (s : State) (p : Pipe) (how : StartKind) :
    Ordinary (cellsOf (s.startLocal p how).2) s (s.startLocal p how).1 := by
  have runner := (Ordinary.refl s).modFr_take (o' := parkedCell (s.pipe p).fr.frameNow) p
    (fun r => r.afterStart (s.pipe p).pb.nextPlan how s.time)
    (by rw [Runner.afterStart_cells]; exact add_comm _ _)
  have builder := runner.modPb_take (o' := ↑(((s.pipe p).pb.negotiateAt how).map (·.cell))) p
    (fun b => b.afterStart how) (by simpa using (s.pipe p).pb.afterStart_cells how)
  refine ((((builder.emitMark p _).announceFrame p).lockAtFrameStart p how _).pulsePins _).releaseSlot p _ |>.out ?_
  simp only [State.startLocal, cellsOf_cons, cellsOf_nil, add_zero, zero_add]
  rw [add_comm]
  cases (s.pipe p).fr.frameNow <;> rfl

theorem ordinary_startFrame (s : State) (p : Pipe) (how : StartKind) :
    Ordinary (cellsOf (s.startFrame p how).2) s (s.startFrame p how).1 := by
  have first := ordinary_startLocal s p how
  unfold State.startFrame
  dsimp only
  split
  · have pulsed := first.takePulse (otherPipe p)
    split
    · have both := pulsed.trans (ordinary_startLocal _ (otherPipe p) .aligned)
      rw [← cellsOf_append] at both
      split
      · exact both.takePulse p
      · exact both
    · exact pulsed
  · exact first

theorem ordinary_startBoth (s : State) (ps : List Pipe) : Ordinary (cellsOf (s.startBoth ps).2) s (s.startBoth ps).1 := by
  induction ps generalizing s with
  | nil => exact .refl s
  | cons p ps ih =>
    have := (ordinary_startFrame s p .aligned).trans (ih (s.startFrame p .aligned).1)
    rwa [← cellsOf_append] at this

namespace Ordinary

variable {o : Multiset (Fin 16)} {s t : State}

/-- An operation that hands over, after one that has not. -/
theorem andHanding (h : Ordinary 0 s t) {x : Handing} (hx : Ordinary (cellsOf x.2) t x.1) :
    Ordinary (cellsOf x.2) s x.1 := zero_add (cellsOf x.2) ▸ h.trans hx

end Ordinary

theorem ordinary_refPulse (s : State) : Ordinary (cellsOf s.refPulse.2) s s.refPulse.1 := by
  have pulsed := ((((Ordinary.refl s).modRef fun r => { r with lastPulse := some s.time }).pulsePins
    .reference).takeRefPulse .p0).takeRefPulse .p1
  unfold State.refPulse
  dsimp only
  split
  · exact pulsed
  · exact pulsed.andHanding (ordinary_startFrame _ _ _)
  · exact pulsed.andHanding (ordinary_startFrame _ _ _)
  · exact pulsed.draw.andHanding (ordinary_startBoth _ _)

/-! Bursts (R127, R128). -/

/-- A band is either among those that pass a test or among the others. -/
theorem bandCells_filter (bs : List Band) (keep : Band → Bool) :
    bandCells (bs.filter fun b => !keep b) + bandCells (bs.filter keep) = bandCells bs := by
  unfold bandCells
  rw [add_comm, Multiset.coe_add, ← List.map_append]
  exact Multiset.coe_eq_coe.2 ((List.filter_append_perm keep bs).map _)

/-- The bands a burst completion of the runner satisfies (R127). -/
def Runner.hits (r : Runner) (first count : Nat) (b : Band) : Bool :=
  b.satisfiedBy r.frameNumber ((r.plan.map (·.v)).getD 0) first count

theorem ordinary_burstCompleted (s : State) (p : Pipe) (first count : Nat) :
    Ordinary (cellsOf (s.burstCompleted p first count).2) s (s.burstCompleted p first count).1 := by
  have taken := (Ordinary.refl s).modFr_take
    (o' := bandCells ((s.pipe p).fr.bands.filter ((s.pipe p).fr.hits first count))) p
    (fun r => { r with bands := r.bands.filter fun b => !(s.pipe p).fr.hits first count b })
    (by rw [add_assoc, bandCells_filter])
  have hands : 0 + bandCells ((s.pipe p).fr.bands.filter ((s.pipe p).fr.hits first count)) =
      cellsOf (s.burstCompleted p first count).2 := by
    simp only [State.burstCompleted, cellsOf_cons, cellsOf_nil, add_zero, zero_add]
    exact (bands_cells _ _ fun _ => rfl).symm
  refine Ordinary.out ?_ hands
  unfold State.burstCompleted
  dsimp only
  split
  · exact taken.raisePipeFault p _
  · exact taken

theorem ordinary_slotCompleted (s : State) (p : Pipe) (x : Option Slot) :
    Ordinary (cellsOf (s.slotCompleted p x).2) s (s.slotCompleted p x).1 := by
  unfold State.slotCompleted
  split
  · exact ordinary_burstCompleted s p _ _
  · exact .refl s

/-! Link stops (R34 to R37). -/

theorem ordinary_abortParked (s : State) (p : Pipe) :
    Ordinary (cellsOf (s.abortParked p).2) s (s.abortParked p).1 := by
  have admission := (Ordinary.refl s).modLc_take (o' := parkedCell (s.pipe p).lc.parkedAdmit) p
    (fun lc => { lc with parkedAdmit := none }) (zero_add _)
  have negotiate := admission.modPb_take (o' := parkedCell (s.pipe p).pb.negotiate) p
    (fun b => { b with phase := .none, negotiate := none }) (by simp)
  have runner := negotiate.modFr_take
    (o' := parkedCell (s.pipe p).fr.frameNow + bandCells (s.pipe p).fr.bands) p
    (fun r => { r with frameNow := none, bands := [] }) (by simp [bandCells])
  refine runner.out ?_
  simp only [State.abortParked, cellsOf_cons, cellsOf_nil, abortedOf_cells, add_zero, zero_add]
  rw [bands_cells _ _ fun _ => rfl, add_assoc]

namespace Ordinary

variable {o : Multiset (Fin 16)} {s t : State}

/-! The bank and the surfaces. -/

theorem abandonFrame (h : Ordinary o s t) (k : Surface) : Ordinary o s (t.abandonFrame k) := h.modSurf k _ fun _ => id

theorem countLoss (h : Ordinary o s t) (k : Surface) : Ordinary o s (t.countLoss k) := h.modSurf k _ fun _ => id

theorem unwait (h : Ordinary o s t) (k : Surface) : Ordinary o s (t.unwait k) := h.modBank _

theorem loseRequest (h : Ordinary o s t) (k : Surface) : Ordinary o s (t.loseRequest k) :=
  ((h.modBank _).raiseSurfaceFault k _).countLoss k

theorem startScan (h : Ordinary o s t) (r : BankRequest) : Ordinary o s (t.startScan r).1 := by
  unfold State.startScan
  dsimp only
  split
  · dsimp only
    exact (h.loseRequest r.surface).modBank _
  · dsimp only
    exact h.modBank _

theorem grant (h : Ordinary o s t) (r : BankRequest) : Ordinary o s (t.grant r).1 := by
  unfold State.grant
  dsimp only
  split
  · exact (h.modBank _).startScan r
  · dsimp only
    exact (h.modBank _).modBank _

theorem serveWaiting (h : Ordinary o s t) (n : Nat) : Ordinary o s (t.serveWaiting n) := by
  induction n generalizing t with
  | zero => exact h
  | succ n ih =>
    unfold State.serveWaiting
    split
    · exact h
    next r _ =>
      have granted := (h.unwait r.surface).grant r
      dsimp only
      split
      · exact ih granted
      · exact granted

theorem freeBank (h : Ordinary o s t) : Ordinary o s t.freeBank := h.serveWaiting 2

theorem requestArrives (h : Ordinary o s t) (r : BankRequest) : Ordinary o s (t.requestArrives r) := by
  unfold State.requestArrives
  dsimp only
  split
  · exact h.loseRequest _
  · split
    · split
      · exact (h.grant r).freeBank
      · exact h.grant r
    · split
      · exact (h.loseRequest _).modBank _
      · exact h.modBank _

theorem abortScan (h : Ordinary o s t) (k : Surface) : Ordinary o s (t.abortScan k) := by
  unfold State.abortScan
  split
  · exact (h.modBank _).freeBank
  · exact h

theorem endBankUse (h : Ordinary o s t) (k : Surface) : Ordinary o s (t.endBankUse k) := by
  unfold State.endBankUse
  dsimp only
  split
  · exact ((h.unwait k).modBank _).abortScan k
  · exact (h.unwait k).abortScan k

theorem endRetune (h : Ordinary o s t) : Ordinary o s t.endRetune := by
  unfold State.endRetune
  split
  next r _ =>
    dsimp only
    split
    · exact (h.startScan r).freeBank
    · exact h.startScan r
  · exact (h.modBank _).freeBank

theorem expireRequest (h : Ordinary o s t) (k : Surface) : Ordinary o s (t.expireRequest k) :=
  (h.unwait k).loseRequest k

theorem tickPad (h : Ordinary o s t) : Ordinary o s t.tickPad :=
  ((h.same (u := { t with pct := { t.pct with tickCount := t.pct.tickCount + 1 } })
    rfl rfl rfl rfl rfl rfl rfl).requestArrives _).same rfl rfl rfl rfl rfl rfl rfl

/-! Touch frames and the writer's check. -/

theorem startWrite (h : Ordinary o s t) : Ordinary o s t.startWrite := by
  unfold State.startWrite
  split
  · split
    · exact h
    · exact (h.modSurf _ _ fun _ => id).modRpw _
  · exact h

theorem claimArrival (h : Ordinary o s t) (b : Fin 16) : Ordinary o s (t.claimArrival b) := (h.modRpw _).startWrite

theorem discardIfFull (h : Ordinary o s t) (k : Surface) : Ordinary o s (t.discardIfFull k) := by
  unfold State.discardIfFull
  split
  · exact (h.modSurf k _ fun _ => id).raiseSurfaceFault k _
  · exact h

theorem joinHeld (h : Ordinary o s t) (k : Surface) (f : TouchFrame) : Ordinary o s (t.joinHeld k f) := by
  have joined := (h.discardIfFull k).modSurf k
    (fun x => { x with held := x.held ++ [{ f with joined := t.joinCounter }] }) fun _ => id
  exact Ordinary.startWrite (joined.same rfl rfl rfl rfl rfl rfl rfl)

theorem takeRow (h : Ordinary o s t) (k : Surface) (fresh : Bool) (now : Word) (src : RowSource) (ns : List Half) :
    Ordinary o s (t.takeRow k fresh now src ns).1 := by
  unfold State.takeRow
  dsimp only
  split
  · exact (h.modSurf k _ fun _ => id).joinHeld k _
  · dsimp only
    exact h.modSurf k _ fun _ => id

theorem takeRows (h : Ordinary o s t) (k : Surface) (start : Word) (rowTime : Nat) (src : RowSource)
    (ns : Nat → List Half) (n i : Nat) (fresh : Bool) : Ordinary o s (t.takeRows k start rowTime src ns n i fresh) := by
  induction n generalizing t i fresh with
  | zero => exact h
  | succ n ih => exact ih (h.takeRow k fresh _ src _) _ _

theorem completeScan (h : Ordinary o s t) (r : BankRequest) (ns : List Half) : Ordinary o s (t.completeScan r ns) := by
  have drawn : Ordinary o s
      (if ns.length < t.bank.scanRows * (t.surf r.surface).geo.cols then (t.draw).2 else t) := by
    split
    · exact h.draw
    · exact h
  have rows := drawn.takeRows r.surface t.bank.scanStart (t.surf r.surface).geo.rowTime r.particulars.rowSource
    (rowNodes ns (t.draw).1 (t.surf r.surface).geo.cols) t.bank.scanRows 0 true
  unfold State.completeScan
  dsimp only
  split
  · exact ((rows.raiseSurfaceFault _ _).modBank _).freeBank
  · exact (rows.modBank _).freeBank

end Ordinary

theorem ordinary_linkStop (s : State) (p : Pipe) : Ordinary (cellsOf (s.linkStop p).2) s (s.linkStop p).1 := by
  have stopped := ((((ordinary_abortParked s p).modLc p (fun lc => { lc.stopTimer with outstanding := none }) rfl).modPb p
    (fun b => b.stopped) rfl).modFr p (fun r => r.stopped) rfl rfl).setLock p fun l => l.dropHistory .notLocking
  cases p with
  | p0 => exact stopped
  | p1 => exact (stopped.endBankUse .s0).abandonFrame .s0

theorem ordinary_leaveLink (s : State) (p : Pipe) : Ordinary (cellsOf (s.leaveLink p).2) s (s.leaveLink p).1 := by
  unfold State.leaveLink
  split
  · exact ordinary_linkStop s p
  · have taken := (Ordinary.refl s).modLc_take (o' := parkedCell (s.pipe p).lc.parkedAdmit) p
      (fun lc => { lc.stopTimer with parkedAdmit := none }) (zero_add _)
    exact taken.out (by simp)

theorem ordinary_enterRecovery (s : State) (p : Pipe) (why : StopReason) :
    Ordinary (cellsOf (s.enterRecovery p why).2) s (s.enterRecovery p why).1 := by
  have entered := (((ordinary_leaveLink s p).setLink p .recovery).modLc p
    (fun lc => { lc with stopReason := why, recoveryCount := min 255 (lc.recoveryCount + 1), waiting := [],
                         quietEnd := some (s.after quietIntervalTU) }) rfl).raisePipeFault p .recovery
  unfold State.enterRecovery
  dsimp only
  split
  · exact entered.raisePipeFault p _
  · exact entered

theorem ordinary_enterOff (s : State) (p : Pipe) (why : StopReason) :
    Ordinary (cellsOf (s.enterOff p why).2) s (s.enterOff p why).1 :=
  ((ordinary_leaveLink s p).setLink p .off).modLc p
    (fun lc => { lc with stopReason := why, waiting := [], quietEnd := none }) rfl

theorem ordinary_missFrame (s : State) (p : Pipe) : Ordinary (cellsOf (s.missFrame p).2) s (s.missFrame p).1 := by
  have missed := ((Ordinary.refl s).modLc p
    (fun lc => { lc.stopTimer with outstanding := none, missedAcks := lc.missedAcks + 1 }) rfl).raisePipeFault p
    .ackMissed
  unfold State.missFrame
  dsimp only
  split
  · exact missed.andHanding (ordinary_enterRecovery _ p .ackMissed)
  · exact missed

/-! Entry to ACTIVE, and the end of a frame. -/

theorem ordinary_enterActive (s : State) (p : Pipe) (c : Contract) :
    Ordinary (cellsOf (s.enterActive p c).2) s (s.enterActive p c).1 := by
  have admitted := (((Ordinary.refl s).setLink p .active).modLc_take (o' := parkedCell (s.pipe p).lc.parkedAdmit) p
    (fun lc => { lc.stopTimer with outstanding := none, missedAcks := 0, parkedAdmit := none })
    (by rw [State.setLink_eq]; cases p <;> exact zero_add _)).makePlan p 1 c
  unfold State.enterActive
  dsimp only
  split
  · refine ((admitted.setLock p _).modFr p (fun r =>
      { r with state := .aligning, frameNumber := 0, lastLength := 0, alignDeadline := some (s.after (2 * c.f)),
               alignedStart := none }) rfl rfl).out ?_
    cases (s.pipe p).lc.parkedAdmit <;> simp
  · refine (((admitted.setLock p _).modFr p
      (fun r => { r with frameNumber := 0, lastLength := 0 }) rfl rfl).trans (ordinary_startFrame _ p .entry)).out ?_
    cases (s.pipe p).lc.parkedAdmit <;> simp

theorem Ordinary.endIntoSelecting {o : Multiset (Fin 16)} {s t : State} (h : Ordinary o s t) (p : Pipe) (c : Contract) :
    Ordinary o s (t.endIntoSelecting p c) :=
  ((h.modFr p _ rfl (by simp [Band.carryOver, Function.comp_def])).modPb p _ rfl).enterSelecting p c

theorem ordinary_endFrame (s : State) (p : Pipe) : Ordinary (cellsOf (s.endFrame p).2) s (s.endFrame p).1 := by
  unfold State.endFrame
  split
  · split
    · exact (Ordinary.refl s).endIntoSelecting p _
    · exact ordinary_startFrame s p .next
  · exact ordinary_startFrame s p .next

end Sys2Proof.Machine
end

section
/-! PROOF. What each command of the part does to the host's memory, the requests and the flags: an opening of its own,
and then an ordinary event. -/

namespace Sys2Proof.Machine

/-! Received messages and the link's timers. -/

namespace Ordinary

variable {o : Multiset (Fin 16)} {s t : State}

theorem receiveList (h : Ordinary o s t) (p : Pipe) (ms : List ModeRecord) : Ordinary o s (t.receiveList p ms) := by
  unfold State.receiveList
  split
  · exact h
  · split
    · have held := (h.setLink p .held).modLc p (fun lc => { lc.stopTimer with modes := ms }) rfl
      dsimp only
      split
      · exact held.beginAdmission p
      · exact held
    · exact h.modLc p _ rfl

theorem sendWaiting (h : Ordinary o s t) (p : Pipe) : Ordinary o s (t.sendWaiting p) := by
  unfold State.sendWaiting
  split
  · exact h
  · exact (h.modLc p _ rfl).modLc p _ rfl

theorem endSending (h : Ordinary o s t) (p : Pipe) : Ordinary o s (t.endSending p) := by
  unfold State.endSending
  split
  · exact h
  · refine Ordinary.sendWaiting (h.modLc p _ ?_) p
    rfl

/-! Slots and plans. -/

theorem startBurst (h : Ordinary o s t) (p : Pipe) : Ordinary o s (t.startBurst p) :=
  (h.nextSlot p).releaseSlot p _

theorem raiseWindow (h : Ordinary o s t) : Ordinary o s t.raiseWindow := by
  unfold State.raiseWindow
  dsimp only
  split
  · split
    · exact h.requestArrives _
    · exact h
  · exact h

theorem holdPanel (h : Ordinary o s t) : Ordinary o s t.holdPanel := h.sendMessage .p1 _ _

theorem stagedSelection (h : Ordinary o s t) (p : Pipe) : Ordinary o s (t.stagedSelection p) := by
  unfold State.stagedSelection
  split
  · exact h.modPb p _ rfl
  · exact h

theorem planPoint (h : Ordinary o s t) (p : Pipe) : Ordinary o s (t.planPoint p) := by
  unfold State.planPoint
  dsimp only
  split
  · exact (h.stagedSelection p).makePlan p _ _
  · exact h.stagedSelection p

theorem startTrim (h : Ordinary o s t) (p : Pipe) : Ordinary o s (t.startTrim p) := h.modPipe_same p _ rfl rfl

/-! Surfaces. -/

theorem setGeometry (h : Ordinary o s t) (k : Surface) (geo : Geometry) : Ordinary o s (t.setGeometry k geo) := by
  have aborted := ((h.modSurf k (fun x => { x with geo := geo }) fun _ => id).abortScan k).abandonFrame k
  cases k with
  | s0 => exact aborted
  | s1 =>
    unfold State.setGeometry
    dsimp only
    split
    · exact aborted.same rfl rfl rfl rfl rfl rfl rfl
    · exact aborted

theorem turnOn (h : Ordinary o s t) (k : Surface) : Ordinary o s (t.turnOn k) := by
  have on := h.modSurf k (fun x => { x with enabled := true }) fun _ => id
  cases k with
  | s0 => exact on
  | s1 => exact Ordinary.tickPad (on.same rfl rfl rfl rfl rfl rfl rfl)

theorem turnOff (h : Ordinary o s t) (k : Surface) : Ordinary o s (t.turnOff k) := by
  have off := ((h.modSurf k (fun x => { x with enabled := false }) fun _ => id).endBankUse k).abandonFrame k
  cases k with
  | s0 => exact off
  | s1 => exact off.same rfl rfl rfl rfl rfl rfl rfl

end Ordinary

/-! Events that hand over, to their end. -/

theorem ordinary_receiveAck (s : State) (p : Pipe) (e v : Byte) : Ordinary 0 s (s.receiveAck p e v) := by
  unfold State.receiveAck
  split
  · split
    · split
      · exact (ordinary_enterActive s p _).finish
      · exact .refl s
    · exact .refl s
  · split
    · exact (Ordinary.refl s).modLc p _ rfl
    · exact .refl s
  · exact .refl s

theorem ordinary_receiveNak (s : State) (p : Pipe) : Ordinary 0 s (s.receiveNak p) := by
  unfold State.receiveNak
  split
  · exact (ordinary_enterRecovery s p _).finish
  · exact (ordinary_missFrame s p).finish
  · exact .refl s

theorem ordinary_receivePanelFault (s : State) (p : Pipe) (code : Byte) :
    Ordinary 0 s (s.receivePanelFault p code) := by
  have coded := (Ordinary.refl s).modLc p (fun lc => { lc with panelFault := code }) rfl
  have recovers := (coded.andHanding (ordinary_enterRecovery _ p .panelFault)).finish
  unfold State.receivePanelFault
  dsimp only
  split
  · exact recovers
  · exact recovers
  · exact recovers
  · exact coded
  · exact coded
  · exact coded

theorem ordinary_receive (s : State) (p : Pipe) (m : RxMessage) : Ordinary 0 s (s.receive p m) := by
  cases m with
  | list ms => exact (Ordinary.refl s).receiveList p ms
  | ack e v => exact ordinary_receiveAck s p e v
  | nak => exact ordinary_receiveNak s p
  | panelFault code => exact ordinary_receivePanelFault s p code

theorem ordinary_probeExpired (s : State) (p : Pipe) : Ordinary 0 s (s.probeExpired p) := by
  have stopped := (Ordinary.refl s).modLc p (fun lc => { lc with answerDeadline := none }) rfl
  unfold State.probeExpired
  dsimp only
  split
  · exact (stopped.modLc p _ rfl).sendMessage p _ _
  · exact (stopped.andHanding (ordinary_enterOff _ p _)).finish

theorem ordinary_startWindow (s : State) : Ordinary 0 s s.startWindow :=
  Ordinary.finish (x := (_, _))
    ((((ordinary_slotCompleted s .p1 s.pipes.p1.fr.currentSlot).nextSlot .p1).holdPanel).raiseWindow)

theorem ordinary_startBlank (s : State) (p : Pipe) : Ordinary 0 s (s.startBlank p) :=
  Ordinary.finish (x := (_, _)) (((ordinary_slotCompleted s p (s.pipe p).fr.currentSlot).nextSlot p).planPoint p)

theorem ordinary_endTrim (s : State) (p : Pipe) : Ordinary 0 s (s.endTrim p) := by
  unfold State.endTrim
  split
  · exact (Ordinary.refl s).modFr p _ rfl rfl
  · exact (ordinary_endFrame s p).finish

theorem ordinary_takeEdge (s : State) : Ordinary 0 s s.takeEdge := by
  unfold State.takeEdge
  split
  · exact (Ordinary.refl s).modRef _
  · exact (((Ordinary.refl s).modRef _).andHanding (ordinary_refPulse _)).finish

theorem ordinary_generatePulse (s : State) : Ordinary 0 s s.generatePulse :=
  (((Ordinary.refl s).modRef _).andHanding (ordinary_refPulse _)).finish

theorem ordinary_endScan (s : State) (ns : List Half) : Ordinary 0 s (s.endScan ns) := by
  unfold State.endScan
  split
  · exact (((Ordinary.refl s).completeScan _ ns).publish s).surfaceRewritten s _
  · exact .refl s

theorem ordinary_becomeReady (s : State) : Ordinary 0 { s with ready := true } s.becomeReady :=
  (((((Ordinary.refl { s with ready := true }).enterProbing .p0).enterProbing .p1).modRef _).andHanding
    (ordinary_refPulse _)).finish

theorem Ordinary.callPullIn {s t : State} (h : Ordinary 0 s t) (p : Pipe) (served : Bool) :
    Ordinary 0 s (t.callPullIn p served) := by
  unfold State.callPullIn
  split
  · split
    · exact h.serveCompletions
    · exact (h.modFr p _ rfl rfl).serveCompletions
  · exact ((h.andHanding (ordinary_endFrame t p)).finish).serveCompletions
  · exact h.serveCompletions

/-! The decisions of the request kinds (R10, R11). -/

theorem State.taken_eq_some {s : State} {kind : Nat} {r : RequestRecord} :
    s.taken kind = some r ↔ s.takes kind r := by
  unfold State.taken State.takes
  cases s.rqi.engine with
  | idle => simp
  | writing c since => simp
  | taking r' since =>
    simp only [Engine.taking.injEq, exists_and_left, exists_eq', and_true]
    split
    · next hk => exact ⟨fun h => by obtain rfl := Option.some.inj h; exact ⟨hk, rfl⟩, fun h => by rw [h.2]⟩
    · next hk => exact ⟨nofun, fun h => absurd (h.2 ▸ h.1) hk⟩

/-- A completion decided at a take keeps its cell in the engine. -/
theorem ordinary_writing {s : State} {kind : Nat} {r : RequestRecord} (h : s.takes kind r) (c : Completion)
    (hc : c.cell = r.cell) (now : Word) : Ordinary 0 s { s with rqi := { s.rqi with engine := .writing c now } } := by
  obtain ⟨-, since, he⟩ := h
  exact { Ordinary.refl s with
    engine := by simp [he, Engine.cells, hc]
    held := by simp [State.held, Rqi.held, he, Engine.cells, hc] }

theorem ordinary_finishTake {s : State} {kind : Nat} {r : RequestRecord} (h : s.takes kind r) (st : Status)
    (ws : List Word) : Ordinary 0 s (s.finishTake r st ws) := ordinary_writing h _ rfl _

theorem ordinary_finishBadValue {s : State} {kind : Nat} {r : RequestRecord} (h : s.takes kind r) (k : Nat) :
    Ordinary 0 s (s.finishBadValue r k) := ordinary_writing h _ rfl _

/-- How a command may open before the ordinary event it is. -/
inductive Opening (c : Instr) (s : State) : State → Prop where
  | none : Opening c s s
  /-- The request of the take parks (R11). -/
  | parks (r : RequestRecord) (since : Word) (u : State) (engine : s.rqi.engine = .taking r since)
      (cells : u.cells = s.cells.set r.cell .parked) (ready : u.ready = s.ready)
      (rqi : u.rqi = { s.rqi with engine := .idle }) (held : u.held = s.held) (mem : u.mem = s.mem)
      (notice : u.notice = s.notice) (faults : s.faultsKept u) : Opening c s u
  /-- A CLEAR_FAULTS clears a fault set (R178). -/
  | clears (u : State) (command : c = .clearFaults) (cells : u.cells = s.cells) (ready : u.ready = s.ready)
      (rqi : u.rqi = s.rqi) (held : u.held = s.held) (mem : u.mem = s.mem) (notice : u.notice = s.notice) :
      Opening c s u
  /-- The report in progress is written to its end (R170). -/
  | reports (j : WriteJob) (writer : s.rpw.writer = some j) (marks : Vector Bool 16) (seq : Word) :
      Opening c s { s with mem := (j.writePart j.size s.mem).writeWord (blockBase j.block) seq, filledMarks := marks }

/-- A command is its opening and then an ordinary event. -/
def Opens (c : Instr) (s t : State) : Prop := ∃ u, Opening c s u ∧ Ordinary 0 u t

theorem Ordinary.opens {s t : State} (h : Ordinary 0 s t) (c : Instr) : Opens c s t := ⟨s, .none, h⟩

/-- The request of a take parks with a pipe. -/
theorem opening_parks {c : Instr} {s : State} {kind : Nat} {r : RequestRecord} (h : s.takes kind r) (p : Pipe)
    (g : PipeState → PipeState)
    (hc : (↑(g (s.pipe p)).parkedCells : Multiset (Fin 16)) = ↑(s.pipe p).parkedCells + {r.cell})
    (hf : (g (s.pipe p)).faults = (s.pipe p).faults) : Opening c s ((s.park r).modPipe p g) := by
  obtain ⟨-, since, he⟩ := h
  refine .parks r since _ he rfl rfl rfl ?_ rfl rfl ⟨fun q f => ?_, fun _ _ => id⟩
  · cases p <;>
      simp only [State.held, Rqi.held, State.park, State.modPipe, State.pipe, PerPipe.get, PerPipe.set, he,
        Engine.cells] at hc ⊢ <;>
      simp only [hc, ← Multiset.coe_singleton, Multiset.coe_nil, zero_add] <;> ac_rfl
  · have : ((s.park r).pipe q) = s.pipe q := rfl
    cases p <;> cases q
    · exact fun hx => by rw [← hf] at hx; exact hx
    · exact id
    · exact id
    · exact fun hx => by rw [← hf] at hx; exact hx

section

variable {x : PipeState} {r : RequestRecord}

theorem parkedCells_negotiate (free : ¬ x.pb.negotiate.isSome = true) :
    (↑({ x with pb := { x.pb with negotiate := some r.parked, phase := .staged } } : PipeState).parkedCells :
      Multiset (Fin 16)) = ↑x.parkedCells + {r.cell} := by
  have none := Option.not_isSome_iff_eq_none.1 free
  simp only [PipeState.parkedCells_coe, none, parkedCell_none, parkedCell_some, RequestRecord.parked]
  ac_rfl

theorem parkedCells_admit (free : ¬ x.lc.parkedAdmit.isSome = true) :
    (↑({ x with lc := { x.lc with parkedAdmit := some r.parked } } : PipeState).parkedCells : Multiset (Fin 16)) =
      ↑x.parkedCells + {r.cell} := by
  have none := Option.not_isSome_iff_eq_none.1 free
  simp only [PipeState.parkedCells_coe, none, parkedCell_none, parkedCell_some, RequestRecord.parked, zero_add]
  ac_rfl

theorem parkedCells_frameNow (free : ¬ x.fr.frameNow.isSome = true) :
    (↑({ x with fr := { x.fr with frameNow := some r.parked } } : PipeState).parkedCells : Multiset (Fin 16)) =
      ↑x.parkedCells + {r.cell} := by
  have none := Option.not_isSome_iff_eq_none.1 free
  simp only [PipeState.parkedCells_coe, none, parkedCell_none, parkedCell_some, RequestRecord.parked]
  ac_rfl

theorem parkedCells_band {band : Band} (request : band.request = r.parked) :
    (↑({ x with fr := { x.fr with bands := x.fr.bands ++ [band] } } : PipeState).parkedCells : Multiset (Fin 16)) =
      ↑x.parkedCells + {r.cell} := by
  simp only [PipeState.parkedCells_coe, bandCells, List.map_append, List.map_cons, List.map_nil, request,
    RequestRecord.parked, ← Multiset.coe_add, Multiset.coe_singleton]
  ac_rfl

end

theorem opens_decideNegotiate {s : State} {r : RequestRecord} (h : s.takes 0x02 r) (c : Instr) :
    Opens c s (publish s (s.decideNegotiate r)) := by
  unfold State.decideNegotiate
  split
  · exact ((ordinary_finishTake h _ _).publish s).opens c
  next p _ =>
    split
    · exact ((ordinary_finishTake h _ _).publish s).opens c
    · split
      · exact ((ordinary_finishTake h _ _).publish s).opens c
      next hn =>
        exact ⟨_, opening_parks h p _ (parkedCells_negotiate hn) rfl, ((Ordinary.refl _).serveCompletions).publish s⟩

theorem opens_decideSetOffers {s : State} {r : RequestRecord} (h : s.takes 0x01 r) (c : Instr) :
    Opens c s (publish s (s.decideSetOffers r)) := by
  refine (Ordinary.publish ?_ s).opens c
  unfold State.decideSetOffers
  split
  · exact ordinary_finishTake h _ _
  next p _ =>
    split
    · exact ordinary_finishBadValue h _
    next auto offers _ =>
      have stored := (ordinary_finishTake h .done [BitVec.ofNat 32 offers.length]).modPb p
        (fun b => { b with offers := offers, autoAdmit := auto }) rfl
      dsimp only
      split
      · exact stored.beginAdmission p
      · exact stored

theorem opens_parkAdmit {s : State} {r : RequestRecord} (h : s.takes 0x03 r) (c : Instr) (p : Pipe) :
    Opens c s (publish s (s.parkAdmit r p)) := by
  unfold State.parkAdmit
  split
  · exact ((ordinary_finishTake h _ _).publish s).opens c
  next hn =>
    refine ⟨_, opening_parks h p (fun x => { x with lc := { x.lc with parkedAdmit := some r.parked } })
      (parkedCells_admit hn) rfl, Ordinary.publish ?_ s⟩
    dsimp only
    split
    · exact ((Ordinary.refl _).beginAdmission p).serveCompletions
    · exact (Ordinary.refl _).serveCompletions

theorem opens_decideAdmit {s : State} {r : RequestRecord} (h : s.takes 0x03 r) (c : Instr) :
    Opens c s (publish s (s.decideAdmit r)) := by
  have refuses := fun st ws => ((ordinary_finishTake h st ws).publish s).opens c
  unfold State.decideAdmit
  split
  · exact refuses _ _
  next p _ =>
    split
    · exact refuses _ _
    · exact refuses _ _
    all_goals exact opens_parkAdmit h c p

theorem opens_decidePipeRestart {s : State} {r : RequestRecord} (h : s.takes 0x04 r) (c : Instr) :
    Opens c s (s.decidePipeRestart r) := by
  unfold State.decidePipeRestart
  split
  · exact (ordinary_finishTake h _ _).opens c
  next p _ =>
    have aborted := (ordinary_enterOff (s.finishTake r .done []) p .hostRestart).trans (ordinary_abortParked _ p)
    rw [← cellsOf_append] at aborted
    have restarted := Ordinary.finish (x := (_, _)) (aborted.enterProbing p)
    exact ((((ordinary_finishTake h _ _).trans_zero restarted).publish s).pipeRewritten s p).opens c

theorem opens_decideSetQuiet {s : State} {r : RequestRecord} (h : s.takes 0x05 r) (c : Instr) :
    Opens c s (publish s (s.decideSetQuiet r)) := by
  refine (Ordinary.publish ?_ s).opens c
  unfold State.decideSetQuiet
  split
  · exact ordinary_finishTake h _ _
  · exact ordinary_finishTake h _ _
  · split
    · exact ordinary_finishBadValue h _
    · exact (ordinary_finishTake h _ _).same rfl rfl rfl rfl rfl rfl rfl

theorem opens_decideUrgentBand {s : State} {r : RequestRecord} (h : s.takes 0x06 r) (c : Instr) :
    Opens c s (publish s (s.decideUrgentBand r)) := by
  have refuses := fun st ws => ((ordinary_finishTake h st ws).publish s).opens c
  unfold State.decideUrgentBand
  split
  · exact refuses _ _
  next p _ =>
    split
    · exact ((ordinary_finishBadValue h _).publish s).opens c
    · split
      · exact refuses _ _
      · split
        · exact refuses _ _
        · exact ⟨_, opening_parks h p _ (parkedCells_band rfl) rfl, (((Ordinary.refl _).callPullIn p _).publish s)⟩

theorem opens_decideFrameNow {s : State} {r : RequestRecord} (h : s.takes 0x07 r) (c : Instr) :
    Opens c s (publish s (s.decideFrameNow r)) := by
  have refuses := fun st ws => ((ordinary_finishTake h st ws).publish s).opens c
  unfold State.decideFrameNow
  split
  · exact refuses _ _
  next p _ =>
    split
    · exact refuses _ _
    · split
      · exact refuses _ _
      next hn =>
        exact ⟨_, opening_parks h p _ (parkedCells_frameNow hn) rfl, (((Ordinary.refl _).callPullIn p _).publish s)⟩

theorem opens_decideSetReference {s : State} {r : RequestRecord} (h : s.takes 0x08 r) (c : Instr) :
    Opens c s (publish s (s.decideSetReference r)) := by
  refine (Ordinary.publish ?_ s).opens c
  unfold State.decideSetReference
  split
  · exact ordinary_finishBadValue h _
  · split
    · exact ordinary_finishTake h _ _
    · exact (ordinary_finishTake h _ _).modRef _

theorem opens_decideSetSurface {s : State} {r : RequestRecord} (h : s.takes 0x09 r) (c : Instr) :
    Opens c s (publish s (s.decideSetSurface r)) := by
  refine (Ordinary.publish ?_ s).opens c
  unfold State.decideSetSurface
  split
  · exact ordinary_finishTake h _ _
  · split
    · exact ordinary_finishBadValue h _
    · exact (ordinary_finishTake h _ _).setGeometry _ _

theorem opens_decideSurfaceEnable {s : State} {r : RequestRecord} (h : s.takes 0x0A r) (c : Instr) :
    Opens c s (publish s (s.decideSurfaceEnable r)) := by
  refine (Ordinary.publish ?_ s).opens c
  have done := ordinary_finishTake h .done []
  unfold State.decideSurfaceEnable
  split
  · exact ordinary_finishTake h _ _
  next k _ =>
    split
    · exact ordinary_finishBadValue h _
    · dsimp only
      split
      · exact done.turnOn k
      · exact done.turnOff k
      · exact done
      · exact done

theorem opens_decideSetBank {s : State} {r : RequestRecord} (h : s.takes 0x0B r) (c : Instr) :
    Opens c s (publish s (s.decideSetBank r)) := by
  refine (Ordinary.publish ?_ s).opens c
  unfold State.decideSetBank
  split
  · exact ordinary_finishBadValue h _
  · exact (ordinary_finishTake h _ _).modBank _

theorem opens_decideSetEventPins {s : State} {r : RequestRecord} (h : s.takes 0x0C r) (c : Instr) :
    Opens c s (publish s (s.decideSetEventPins r)) := by
  refine (Ordinary.publish ?_ s).opens c
  unfold State.decideSetEventPins
  split
  · exact ordinary_finishBadValue h _
  · exact (ordinary_finishTake h _ _).same rfl rfl rfl rfl rfl rfl rfl

theorem opens_decideClearFaults {s : State} {r : RequestRecord} (h : s.takes 0x0D r) :
    Opens .clearFaults s (publish s (s.decideClearFaults r)) := by
  unfold State.decideClearFaults
  split
  next p _ =>
    have taken : (s.modPipe p fun x => { x with faults := .none }).takes 0x0D r := h
    exact ⟨s.modPipe p fun x => { x with faults := .none }, .clears _ rfl rfl rfl rfl (by cases p <;> rfl) rfl rfl,
      (ordinary_finishTake taken _ _).publish s⟩
  next k _ _ =>
    have taken : (s.modSurf k fun x => { x with faults := .none }).takes 0x0D r := h
    exact ⟨s.modSurf k fun x => { x with faults := .none }, .clears _ rfl rfl rfl rfl rfl rfl rfl,
      (ordinary_finishTake taken _ _).publish s⟩
  · exact ((ordinary_finishTake h _ _).publish s).opens _

theorem opens_decision {c : Instr} {s t : State} {kind : Nat} {f : State → RequestRecord → State}
    (h : decision kind f s = .next t) (hf : ∀ r, s.takes kind r → Opens c s (publish s (f s r))) : Opens c s t := by
  unfold decision at h
  injection h with h
  subst h
  split
  next r hr => exact hf r (State.taken_eq_some.1 hr)
  next => exact (Ordinary.refl s).opens c

theorem opens_event {c : Instr} {s t : State} {guard : Bool} {f : State → State} (h : event guard f s = .next t)
    (hf : Ordinary 0 s (f s)) : Opens c s t := by
  unfold event at h
  injection h with h
  subst h
  split
  · exact (hf.publish s).opens c
  · exact (Ordinary.refl s).opens c

/-! The end of a report (R170). -/

theorem opens_endWrite (s : State) : Opens .writeCompletion s (publish s s.endWrite) := by
  unfold State.endWrite
  split
  next j hj =>
    exact ⟨_, .reports j hj (s.filledMarks.set j.block true) (s.rpw.nextSeq.get j.frame.surface),
      ((((Ordinary.refl _).modRpw _).noticeReport).startWrite).publish s⟩
  next => exact ((Ordinary.refl s).publish s).opens _

theorem next_inj {s t : State} (h : (.next s : Result State) = .next t) : s = t := by injection h

/-- Host writes, resets, takes and the ends of completions apart, a command is an opening and an ordinary event. -/
theorem exec_opens (c : Instr) (s t : State) (hp : c.portWrite = none) (hr : c ≠ .powerOnReset)
    (hi : c ≠ .initialisationCompletion) (ht : c ≠ .requestTake) (hc : c ≠ .completionWrite)
    (h : exec c s = .next t) : Opens c s t := by
  cases c with
  | powerOnReset => exact absurd rfl hr
  | softReset value => exact nomatch hp
  | initialisationCompletion => exact absurd rfl hi
  | noticeWrite value => exact nomatch hp
  | noticeMaskWrite value => exact nomatch hp
  | registerWriteDiscarded address value => exact nomatch hp
  | hostWorkMemoryWrite address value => exact nomatch hp
  | cellCodeWordWrite cell value => exact nomatch hp
  | claimReturn block => exact nomatch hp
  | requestTake => exact absurd rfl ht
  | completionWrite => exact absurd rfl hc
  | setOffers => exact opens_decision h fun r hr => opens_decideSetOffers hr _
  | negotiate => exact opens_decision h fun r hr => opens_decideNegotiate hr _
  | admitPipe => exact opens_decision h fun r hr => opens_decideAdmit hr _
  | pipeRestart =>
    obtain rfl := next_inj h
    split
    next r hr => exact opens_decidePipeRestart (State.taken_eq_some.1 hr) _
    next => exact (Ordinary.refl s).opens _
  | setQuiet => exact opens_decision h fun r hr => opens_decideSetQuiet hr _
  | urgentBand => exact opens_decision h fun r hr => opens_decideUrgentBand hr _
  | frameNow => exact opens_decision h fun r hr => opens_decideFrameNow hr _
  | setReference => exact opens_decision h fun r hr => opens_decideSetReference hr _
  | setSurface => exact opens_decision h fun r hr => opens_decideSetSurface hr _
  | surfaceEnable => exact opens_decision h fun r hr => opens_decideSurfaceEnable hr _
  | setBank => exact opens_decision h fun r hr => opens_decideSetBank hr _
  | setEventPins => exact opens_decision h fun r hr => opens_decideSetEventPins hr _
  | clearFaults => exact opens_decision h fun r hr => opens_decideClearFaults hr
  | messageRejected p bytes =>
    obtain rfl := next_inj h
    split
    next m _ => exact ((ordinary_receive s p m).publish s).opens _
    next => exact (Ordinary.refl s).opens _
  | list p modes =>
    unfold exec execList at h
    exact opens_event h ((Ordinary.refl s).receiveList p modes)
  | ack p e v =>
    unfold exec execAck at h
    exact opens_event h (ordinary_receiveAck s p e v)
  | nak p =>
    unfold exec execNak at h
    exact opens_event h (ordinary_receiveNak s p)
  | panelFault p code =>
    unfold exec execPanelFault at h
    exact opens_event h (ordinary_receivePanelFault s p code)
  | messageSent p =>
    unfold exec execMessageSent at h
    exact opens_event h ((Ordinary.refl s).endSending p)
  | probeTimeout p =>
    unfold exec execProbeTimeout at h
    exact opens_event h (ordinary_probeExpired s p)
  | selectTimeout p =>
    unfold exec execSelectTimeout at h
    exact opens_event h (ordinary_enterRecovery s p .selectTimeout).finish
  | frameAckTimeout p =>
    unfold exec execFrameAckTimeout at h
    exact opens_event h (ordinary_missFrame s p).finish
  | quietIntervalExpiry p =>
    unfold exec execQuietIntervalExpiry at h
    exact opens_event h ((Ordinary.refl s).enterProbing p)
  | alignedStart p =>
    unfold exec execAlignedStart at h
    exact opens_event h (ordinary_startFrame s p .aligned).finish
  | alignmentDeadline p =>
    unfold exec execAlignmentDeadline at h
    exact opens_event h (ordinary_startFrame s p .deadline).finish
  | burstStart p =>
    unfold exec execBurstStart at h
    exact opens_event h ((Ordinary.refl s).startBurst p)
  | windowStart =>
    unfold exec execWindowStart at h
    exact opens_event h (ordinary_startWindow s)
  | planPoint p =>
    unfold exec execPlanPoint at h
    exact opens_event h (ordinary_startBlank s p)
  | trimStart p =>
    unfold exec execTrimStart at h
    exact opens_event h ((Ordinary.refl s).startTrim p)
  | trimEnd p =>
    unfold exec execTrimEnd at h
    exact opens_event h (ordinary_endTrim s p)
  | stretchLimit p =>
    unfold exec execStretchLimit at h
    exact opens_event h (ordinary_endFrame s p).finish
  | refsyncEdge =>
    unfold exec execRefsyncEdge at h
    exact opens_event h (ordinary_takeEdge s)
  | generatedPulse =>
    unfold exec execGeneratedPulse at h
    exact opens_event h (ordinary_generatePulse s)
  | presenceAbsent =>
    unfold exec execPresenceAbsent at h
    exact opens_event h ((Ordinary.refl s).modRef _)
  | silenceLimit p =>
    unfold exec execSilenceLimit at h
    exact opens_event h ((Ordinary.refl s).loseSource p id)
  | padTick =>
    unfold exec execPadTick at h
    exact opens_event h (Ordinary.refl s).tickPad
  | retuneEnd =>
    unfold exec execRetuneEnd at h
    exact opens_event h (Ordinary.refl s).endRetune
  | scanCompletion nodes =>
    obtain rfl := next_inj h
    split
    · exact (ordinary_endScan s nodes).opens _
    · exact (Ordinary.refl s).opens _
  | requestExpiry k =>
    unfold exec execRequestExpiry at h
    exact opens_event h ((Ordinary.refl s).expireRequest k)
  | writeCompletion =>
    obtain rfl := next_inj h
    split
    · exact opens_endWrite s
    · exact (Ordinary.refl s).opens _
  | pinPulseEnd pin =>
    unfold exec execPinPulseEnd at h
    exact opens_event h ((Ordinary.refl s).same rfl rfl rfl rfl rfl rfl rfl)

end Sys2Proof.Machine
end

section
/-! PROOF. The step: the front command, or on an empty queue an event of the part's own, or one TU. -/

namespace Sys2Proof.Machine

theorem step_cons {s : State} {c : Instr} {rest : List Instr} (h : s.pending = c :: rest) :
    step s = exec c { s with pending := rest } := by simp only [step, h]

theorem step_nil {s : State} (h : s.pending = []) : step s = s.tick := by simp only [step, h]

/-- Taking one of several options runs one of them, or lets time pass where that was an option. -/
theorem State.choose_cases (s : State) (options : List Instr) (go : Bool) (h : go = true ∨ options ≠ []) :
    (∃ c ∈ options, s.choose options go = exec c { s with free := s.free + 1 }) ∨
      go = true ∧ s.choose options go = .next { s with free := s.free + 1 }.passTime := by
  unfold State.choose State.draw
  dsimp only
  split
  next c hc => exact .inl ⟨c, List.mem_of_getElem? hc, rfl⟩
  next hn =>
    refine .inr ⟨?_, rfl⟩
    rcases h with h | h
    · exact h
    · have hl := List.length_pos_iff.2 h
      have := List.getElem?_eq_none_iff.1 hn
      have hm := Nat.mod_lt (Config.schedule s.free) (show 0 < options.length + bit go by omega)
      cases go with
      | true => rfl
      | false => simp only [bit] at this hm; exact absurd this (by simpa using hm)

/-- On an empty queue an event runs that is due or may come, or, where none is due, one TU passes. -/
theorem State.tick_cases (s : State) :
    (∃ c ∈ s.due ++ s.possible, ∃ n, s.tick = exec c { s with free := n }) ∨
      s.due = [] ∧ ∃ n, s.tick = .next { s with free := n }.passTime := by
  unfold State.tick
  split
  next hd hp => exact .inr ⟨hd, s.free, rfl⟩
  next c hd hp => exact .inl ⟨c, by simp [hd], s.free, rfl⟩
  next hd _ =>
    rcases s.choose_cases s.possible true (.inl rfl) with ⟨c, hc, he⟩ | ⟨-, he⟩
    · exact .inl ⟨c, List.mem_append_right _ hc, _, he⟩
    · exact .inr ⟨hd, _, he⟩
  next hd _ _ =>
    have hne : s.due ≠ [] := hd
    rcases s.choose_cases (s.due ++ s.possible) false (.inr (by simp [hne])) with ⟨c, hc, he⟩ | ⟨hf, -⟩
    · exact .inl ⟨c, hc, _, he⟩
    · exact absurd hf (by decide)

/-- Whether a command is neither a host write nor a power-on reset. -/
def OwnCommand (c : Instr) : Prop := c.portWrite = none ∧ c ≠ .powerOnReset

theorem mem_onlyIf {b : Bool} {c d : Instr} (h : d ∈ onlyIf b c) : d = c := by
  unfold onlyIf at h
  split at h
  · exact List.mem_singleton.1 h
  · exact absurd h (by simp)

theorem forall_onlyIf {b : Bool} {c : Instr} {P : Instr → Prop} (h : P c) : ∀ d ∈ onlyIf b c, P d :=
  fun _ hd => mem_onlyIf hd ▸ h

theorem ownCommand_decisionOf {kind : Nat} {c : Instr} (h : decisionOf kind = some c) : OwnCommand c := by
  unfold decisionOf at h
  split at h
  all_goals cases h
  all_goals exact ⟨rfl, nofun⟩

theorem ownCommand_ending {e : Engine} {c : Instr} {t : Word} (h : e.ending = some (c, t)) : OwnCommand c := by
  cases e with
  | idle => exact nomatch h
  | taking r since =>
    obtain ⟨d, hd, he⟩ := Option.map_eq_some_iff.1 h
    obtain ⟨rfl, -⟩ := Prod.mk.inj he
    exact ownCommand_decisionOf hd
  | writing c' since =>
    obtain ⟨rfl, -⟩ := Prod.mk.inj (Option.some.inj h)
    exact ⟨rfl, nofun⟩

/-- The events of a pipe are the part's own. -/
theorem State.pipeDue_own (s : State) (p : Pipe) : ∀ c ∈ s.pipeDue p, OwnCommand c := by
  unfold State.pipeDue
  simp only [List.forall_mem_append, and_assoc]
  refine ⟨?_, ?_, ?_, ?_, ?_, ?_, ?_, ?_, ?_, ?_, ?_, ?_, ?_⟩
  all_goals exact forall_onlyIf ⟨rfl, nofun⟩

/-- What the part does by itself is no host write and no power-on reset. -/
theorem State.due_possible_own (s : State) : ∀ c ∈ s.due ++ s.possible, OwnCommand c := by
  have own : ∀ {b : Bool} {c : Instr}, OwnCommand c → ∀ d ∈ onlyIf b c, OwnCommand d := forall_onlyIf
  have ends : ∀ f : Word → Bool, ∀ d ∈ (match s.rqi.engine.ending with
      | some (c, by_) => onlyIf (f by_) c
      | none => []), OwnCommand d := fun f d hd => by
    split at hd
    next c t he => exact own (ownCommand_ending he) d hd
    next => exact absurd hd (by simp)
  unfold State.due State.possible
  simp only [List.forall_mem_append, and_assoc]
  refine ⟨own ⟨rfl, nofun⟩, own ⟨rfl, nofun⟩, ends _, s.pipeDue_own .p0, s.pipeDue_own .p1, own ⟨rfl, nofun⟩,
    own ⟨rfl, nofun⟩, own ⟨rfl, nofun⟩, own ⟨rfl, nofun⟩, own ⟨rfl, nofun⟩, own ⟨rfl, nofun⟩, own ⟨rfl, nofun⟩,
    own ⟨rfl, nofun⟩, own ⟨rfl, nofun⟩, fun d hd => ?_, own ⟨rfl, nofun⟩, ends _⟩
  obtain ⟨k, -, hk⟩ := List.mem_flatMap.1 hd
  rw [mem_onlyIf hk]
  exact ⟨rfl, nofun⟩

/-! Stores that show while a structure is being written. -/

theorem Memory.read_writeWords_off (m : Memory) (ws : List (Nat × Word)) (a : Nat)
    (h : ∀ x ∈ ws, ¬ inRange a x.1 4) : (m.writeWords ws).read a = m.read a := by
  induction ws generalizing m with
  | nil => rfl
  | cons x ws ih =>
    have := ih (m.writeWord x.1 x.2) fun y hy => h y (by simp [hy])
    exact this.trans (Memory.read_writeWord_off _ _ _ _ (h x (by simp)))

/-- A completion's words lie in its cell, behind the code word. -/
theorem Completion.read_words_off (c : Completion) (m : Memory) (ws : List (Nat × Word)) (hw : ∀ x ∈ ws, x ∈ c.words)
    (a : Nat) (h : ¬ inRange a (cellBase c.cell + 4) 28) : (m.writeWords ws).read a = m.read a := by
  refine Memory.read_writeWords_off m ws a fun x hx => ?_
  have := Completion.words_bound (hw x hx)
  unfold inRange at h ⊢
  omega

/-- The parts of a report lie in its block, behind the claim word. -/
theorem WriteJob.read_writePart_off (j : WriteJob) (n : Nat) (m : Memory) (a : Nat)
    (h : ¬ inRange a (blockBase j.block + 4) 2556) : (j.writePart n m).read a = m.read a := by
  have h1 : (firstWords n j.header).length ≤ 44 := by simp [firstWords, WriteJob.header]
  have h2 : (firstWords (n - wordCount j.header) j.rowTable).length ≤ 384 := by simp [firstWords, WriteJob.rowTable]
  have h3 : (firstWords (n - wordCount j.header - wordCount j.rowTable) j.nodeArea).length ≤ 2048 := by
    simp [firstWords, WriteJob.nodeArea]
  unfold inRange at h
  unfold WriteJob.writePart
  rw [Memory.read_writeBytes_off _ _ _ _ (by omega), Memory.read_writeBytes_off _ _ _ _ (by omega),
    Memory.read_writeBytes_off _ _ _ _ (by omega)]

/-- A completion being written shows in its cell alone. -/
theorem State.completionOn_spec (s : State) : ∃ n m, s.completionOn = { s with free := n, mem := m } ∧
    (s.mem.wf → m.wf) ∧
    ∀ a, (∀ c since, s.rqi.engine = .writing c since → ¬ inRange a (cellBase c.cell + 4) 28) →
      m.read a = s.mem.read a := by
  unfold State.completionOn
  split
  next c since he =>
    refine ⟨_, _, rfl, fun h => Memory.wf_writeWords h _ fun x hx => ?_, fun a ha => ?_⟩
    · have := Completion.words_bound (List.mem_of_mem_take hx)
      have := cellBase_le c.cell
      omega
    · exact c.read_words_off _ _ (fun x hx => List.mem_of_mem_take hx) a (ha c since he)
  · exact ⟨s.free, s.mem, rfl, id, fun _ _ => rfl⟩
  · exact ⟨s.free, s.mem, rfl, id, fun _ _ => rfl⟩

/-- A report being written shows in its block alone. -/
theorem State.reportOn_spec (s : State) : ∃ n m, s.reportOn = { s with free := n, mem := m } ∧
    (s.mem.wf → m.wf) ∧
    ∀ a, (∀ j, s.rpw.writer = some j → ¬ inRange a (blockBase j.block + 4) 2556) → m.read a = s.mem.read a := by
  unfold State.reportOn
  split
  next j hj => exact ⟨_, _, rfl, fun h => WriteJob.wf_writePart h j _, fun a ha => j.read_writePart_off _ _ a (ha j hj)⟩
  · exact ⟨s.free, s.mem, rfl, id, fun _ _ => rfl⟩

/-! Initialisation (R4, R15, R175). -/

/-- A cell is HOST_OWNED exactly while its code word is 0 (R6). -/
def State.codesSafe (s : State) : Prop := ∀ c : Fin 16, s.cells[c] = .hostOwned ↔ s.mem.readWord (cellBase c) = 0

/-- What the work of an initialisation may do: part-owned cells become HOST_OWNED, and the status area, the plan pages
and the block population are written. -/
structure Initialises (s t : State) : Prop where
  frame  : t = { s with mem := t.mem, cells := t.cells, filledMarks := t.filledMarks, rpw := t.rpw }
  owned  : ∀ c : Fin 16, s.cells[c] = .hostOwned → t.cells[c] = .hostOwned
  codes  : s.codesSafe → t.codesSafe
  form   : s.mem.wf → t.mem.wf
  /-- No byte of a HOST_OWNED cell is written. -/
  kept   : ∀ (c : Fin 16) (a : Nat), s.cells[c] = .hostOwned → inRange a (cellBase c) 256 → t.mem.read a = s.mem.read a
  far    : ∀ a, 0x2000 ≤ a → t.mem.read a = s.mem.read a
  writer : t.rpw.writer = s.rpw.writer ∨ t.rpw.writer = none

theorem Initialises.refl (s : State) : Initialises s s where
  frame := rfl
  owned _ := id
  codes := id
  form := id
  kept _ _ _ _ := rfl
  far _ _ := rfl
  writer := .inl rfl

theorem Initialises.trans {s t u : State} (h : Initialises s t) (h' : Initialises t u) : Initialises s u where
  frame := by rw [h'.frame, h.frame]
  owned c hc := h'.owned c (h.owned c hc)
  codes := h'.codes ∘ h.codes
  form := h'.form ∘ h.form
  kept c a hc ha := (h'.kept c a (h.owned c hc) ha).trans (h.kept c a hc ha)
  far a ha := (h'.far a ha).trans (h.far a ha)
  writer := by
    rcases h'.writer with hw | hw
    · rw [hw]; exact h.writer
    · exact .inr hw

/-- Abandoning a cell writes its code and status words alone. -/
theorem State.abandonCell_read_off (s : State) (c : Fin 16) (a : Nat) (h : ¬ inRange a (cellBase c) 8) :
    (s.abandonCell c).mem.read a = s.mem.read a := by
  unfold inRange at h
  unfold State.abandonCell
  dsimp only
  rw [Memory.read_writeWord_off _ _ _ _ (by omega), Memory.read_writeWord_off _ _ _ _ (by omega)]

theorem State.abandonCell_code (s : State) (c : Fin 16) : (s.abandonCell c).mem.readWord (cellBase c) = 0 :=
  Memory.readWord_writeWord _ _ _

theorem State.abandonCell_status (s : State) (c : Fin 16) :
    (s.abandonCell c).mem.readWord (cellBase c + 4) = abandonedWord (s.mem.readWord (cellBase c)) := by
  unfold State.abandonCell
  dsimp only
  rw [Memory.readWord_congr fun x h1 h2 => Memory.read_writeWord_off _ _ _ x (by omega)]
  exact Memory.readWord_writeWord _ _ _

theorem getElem_set_cell (v : Vector CellState 16) (c d : Fin 16) (x : CellState) :
    (v.set c x)[d] = if d = c then x else v[d] := by
  by_cases h : d = c
  · subst h; simp
  · have : c.val ≠ d.val := fun hv => h (Fin.ext hv.symm)
    simp [h, this]

theorem State.abandonCell_cells (s : State) (c d : Fin 16) :
    (s.abandonCell c).cells[d] = if d = c then .hostOwned else s.cells[d] := getElem_set_cell _ _ _ _

/-- Two cells share no byte. -/
theorem cellBase_apart {c d : Fin 16} (h : c ≠ d) : cellBase c + 256 ≤ cellBase d ∨ cellBase d + 256 ≤ cellBase c := by
  have : c.val ≠ d.val := fun hv => h (Fin.ext hv)
  unfold cellBase
  omega

/-- Two blocks share no byte. -/
theorem blockBase_apart {b d : Fin 16} (h : b ≠ d) :
    blockBase b + 2560 ≤ blockBase d ∨ blockBase d + 2560 ≤ blockBase b := by
  have : b.val ≠ d.val := fun hv => h (Fin.ext hv)
  unfold blockBase
  omega

theorem initialises_abandonCell (s : State) (c : Fin 16) (hc : s.cells[c] ≠ .hostOwned) :
    Initialises s (s.abandonCell c) where
  frame := rfl
  owned d hd := by rw [State.abandonCell_cells]; split <;> simp [hd]
  codes hs d := by
    rw [State.abandonCell_cells]
    split
    next h => subst h; simp [State.abandonCell_code]
    next h =>
      have apart := cellBase_apart h
      rw [hs d, Memory.readWord_congr fun x h1 h2 =>
        State.abandonCell_read_off s c x (by unfold inRange; omega)]
  form hw := by
    have := cellBase_le c
    exact Memory.wf_writeWord (Memory.wf_writeWord hw _ _ (by omega)) _ _ (by omega)
  kept d a hd ha := by
    have apart := cellBase_apart (c := c) (d := d) (fun h => hc (h ▸ hd))
    exact State.abandonCell_read_off s c a (by unfold inRange at ha ⊢; omega)
  far a ha := by
    have := cellBase_le c
    exact State.abandonCell_read_off s c a (by unfold inRange; omega)
  writer := .inl rfl

/-- The status area is the span from 0x1000, and the plan pages end at 0x2000. -/
theorem State.writeStatusArea_read_off (s : State) (a : Nat) (h : a < 0x1000 ∨ 0x2000 ≤ a) :
    s.writeStatusArea.mem.read a = s.mem.read a := by
  simp only [State.writeStatusArea, pipeRecordBase, surfaceRecordBase, bankRecordBase, refRecordBase]
  rw [Memory.read_writeBytes_off _ _ _ _ (by simp; omega), Memory.read_writeBytes_off _ _ _ _ (by simp; omega),
    Memory.read_writeBytes_off _ _ _ _ (by simp; omega), Memory.read_writeBytes_off _ _ _ _ (by simp; omega),
    Memory.read_writeBytes_off _ _ _ _ (by simp; omega), Memory.read_writeBytes_off _ _ _ _ (by simp; omega),
    Memory.read_clear, if_neg (by omega)]

/-- Writing the status area changes Work Memory alone, and there the status area and the plan pages. -/
theorem State.writeStatusArea_spec (s : State) : ∃ m, s.writeStatusArea = { s with mem := m } ∧
    (s.mem.wf → m.wf) ∧ ∀ a, a < 0x1000 ∨ 0x2000 ≤ a → m.read a = s.mem.read a := by
  refine ⟨_, rfl, fun h => ?_, s.writeStatusArea_read_off⟩
  simp only [pipeRecordBase, surfaceRecordBase, bankRecordBase, refRecordBase]
  refine Memory.wf_writeBytes (Memory.wf_writeBytes (Memory.wf_writeBytes (Memory.wf_writeBytes (Memory.wf_writeBytes
    (Memory.wf_writeBytes (Memory.wf_clear h _ _) _ _ ?_) _ _ ?_) _ _ ?_) _ _ ?_) _ _ ?_) _ _ ?_ <;> simp

/-- Rebuilding the blocks changes the marks and the Report Writer alone, and no write is in progress after it. -/
theorem State.rebuildBlocks_spec (s : State) :
    ∃ marks w, s.rebuildBlocks = { s with filledMarks := marks, rpw := w } ∧ w.writer = none := ⟨_, _, rfl, rfl⟩

theorem initialises_publication (s : State) : Initialises s s.rebuildBlocks.writeStatusArea := by
  obtain ⟨marks, w, hb, hw⟩ := s.rebuildBlocks_spec
  obtain ⟨m, he, hf, hr⟩ := s.rebuildBlocks.writeStatusArea_spec
  rw [he]
  rw [hb] at hf hr ⊢
  exact {
    frame := rfl
    owned := fun _ => id
    codes := fun hs c => by
      have low := cellBase_le c
      have same : m.readWord (cellBase c) = s.mem.readWord (cellBase c) :=
        Memory.readWord_congr fun x h1 h2 => hr x (by omega)
      show s.cells[c] = .hostOwned ↔ m.readWord (cellBase c) = 0
      rw [same]
      exact hs c
    form := hf
    kept := fun c a _ ha => hr a (by have := cellBase_le c; unfold inRange at ha; omega)
    far := fun a ha => hr a (.inr ha)
    writer := .inr hw }

theorem State.mem_partOwned {s : State} {c : Fin 16} : c ∈ s.partOwned ↔ s.cells[c] ≠ .hostOwned := by
  simp [State.partOwned, List.mem_filter]

theorem initialises_step (s : State) : Initialises s s.initialiseStep := by
  unfold State.initialiseStep
  split
  next c _ h => exact initialises_abandonCell s c (State.mem_partOwned.1 (by rw [h]; simp))
  next => exact initialises_publication s

theorem initialises_steps (n : Nat) (s : State) : Initialises s (State.initialiseSteps n s) := by
  induction n generalizing s with
  | zero => exact .refl s
  | succ n ih => exact (initialises_step s).trans (ih _)

theorem initialises_initialiseOn (s : State) : ∃ n, Initialises { s with free := n } s.initialiseOn := by
  unfold State.initialiseOn
  split
  · exact ⟨s.free, .refl s⟩
  · exact ⟨s.free + 1, initialises_steps _ _⟩

/-- Abandoning cells of a list, none twice. -/
theorem initialises_abandonList (l : List (Fin 16)) (hl : l.Nodup) (s : State) (h : ∀ c ∈ l, s.cells[c] ≠ .hostOwned) :
    Initialises s (l.foldl State.abandonCell s) := by
  induction l generalizing s with
  | nil => exact .refl s
  | cons c l ih =>
    obtain ⟨hc, hl⟩ := List.nodup_cons.1 hl
    refine (initialises_abandonCell s c (h c (by simp))).trans (ih hl _ fun d hd => ?_)
    rw [State.abandonCell_cells, if_neg (by rintro rfl; exact hc hd)]
    exact h d (by simp [hd])

/-- Abandoned cells are HOST_OWNED, and the others keep their states. -/
theorem abandonList_cells (l : List (Fin 16)) (s : State) (d : Fin 16) :
    (l.foldl State.abandonCell s).cells[d] = if d ∈ l then .hostOwned else s.cells[d] := by
  induction l generalizing s with
  | nil => simp
  | cons c l ih =>
    rw [List.foldl_cons, ih, State.abandonCell_cells]
    by_cases h : d ∈ l <;> by_cases hc : d = c <;> simp [h, hc]

theorem State.partOwned_nodup (s : State) : s.partOwned.Nodup := (List.nodup_finRange 16).filter _

theorem initialises_initialised (s : State) : Initialises s s.initialised :=
  (initialises_abandonList s.partOwned s.partOwned_nodup s fun _ h => State.mem_partOwned.1 h).trans
    (initialises_publication _)

/-- Initialisation leaves no cell part-owned. -/
theorem State.initialised_cells (s : State) (c : Fin 16) : s.initialised.cells[c] = .hostOwned := by
  obtain ⟨marks, w, hb, -⟩ := s.abandonCells.rebuildBlocks_spec
  obtain ⟨m, he, -⟩ := s.abandonCells.rebuildBlocks.writeStatusArea_spec
  have cells : s.initialised.cells = (s.partOwned.foldl State.abandonCell s).cells := by
    unfold State.initialised
    rw [he, hb]
    rfl
  rw [cells, abandonList_cells]
  split
  next => rfl
  next h => exact not_not.1 fun hc => h (State.mem_partOwned.2 hc)

/-! One TU. -/

/-- One TU counts in TIME, lets initialisation go on, and shows what is being written. -/
theorem State.passTime_spec (s : State) : ∃ n, ∃ t : State, Initialises { s with time := s.time + 1, free := n } t ∧
    (s.ready = true → t = { s with time := s.time + 1 }) ∧
    ∃ n' m, s.passTime = { t with free := n', mem := m } ∧ (t.mem.wf → m.wf) ∧
      ∀ a, (∀ c since, s.rqi.engine = .writing c since → ¬ inRange a (cellBase c.cell + 4) 28) →
        (∀ j, s.rpw.writer = some j → ¬ inRange a (blockBase j.block + 4) 2556) → m.read a = t.mem.read a := by
  obtain ⟨n, hi⟩ := initialises_initialiseOn { s with time := s.time + 1 }
  refine ⟨n, _, hi, fun hr => if_pos hr, ?_⟩
  unfold State.passTime
  generalize State.initialiseOn { s with time := s.time + 1 } = t at hi
  have engine : t.rqi.engine = s.rqi.engine := by rw [hi.frame]
  obtain ⟨n1, m1, hc, wf1, read1⟩ := t.completionOn_spec
  obtain ⟨n2, m2, hr, wf2, read2⟩ := t.completionOn.reportOn_spec
  rw [hc] at hr wf2 read2
  refine ⟨n2, m2, by rw [hc, hr], wf2 ∘ wf1, fun a hw hj => ?_⟩
  refine (read2 a fun j h => ?_).trans (read1 a (engine ▸ hw))
  rcases hi.writer with h' | h'
  · exact hj j (h' ▸ h)
  · exact nomatch h'.symm.trans h

/-- With nothing to write, one TU counts in TIME alone. -/
theorem State.passTime_calm (s : State) (hr : s.ready = true) (he : ∀ c since, s.rqi.engine ≠ .writing c since)
    (hw : s.rpw.writer = none) : s.passTime = { s with time := s.time + 1 } := by
  unfold State.passTime
  have init : State.initialiseOn { s with time := s.time + 1 } = { s with time := s.time + 1 } := if_pos hr
  have completion : State.completionOn { s with time := s.time + 1 } = { s with time := s.time + 1 } := by
    unfold State.completionOn
    split
    next c since h => exact absurd h (he c since)
    next => rfl
    next => rfl
  rw [init, completion]
  unfold State.reportOn
  split
  next j h => exact nomatch hw.symm.trans h
  next => rfl

/-- Before READY the end of initialisation is always due or possible. -/
theorem State.ready_of_calm {s : State} (hd : s.due = []) (hp : s.possible = []) : s.ready = true := by
  by_contra h
  have hr : (!s.ready) = true := by simpa using h
  by_cases ht : s.time = BitVec.ofNat 32 initialisationTU
  · simp [State.due, onlyIf, hr, ht] at hd
  · simp [State.possible, onlyIf, hr, ht] at hp

/-- The end of a completion being written is always due or possible. -/
theorem State.not_writing_of_calm {s : State} (hd : s.due = []) (hp : s.possible = []) (c : Completion) (since : Word) :
    s.rqi.engine ≠ .writing c since := by
  intro h
  by_cases ht : tuAfter since engineTU = s.time
  · simp [State.due, onlyIf, h, Engine.ending, ht] at hd
  · simp [State.possible, onlyIf, h, Engine.ending, ht] at hp

/-- Settles O1: the step's two branches, and one TU as what it lets go on. -/
theorem stepRunsFrontCommand : Obligations.StepRunsFrontCommand := by
  unfold Obligations.StepRunsFrontCommand
  refine ⟨fun c s rest => rfl, fun s hs => ⟨?_, fun hd hp hw => ?_⟩⟩
  · rw [step_nil hs]
    rcases s.tick_cases with event | ⟨hd, n, he⟩
    · exact .inl event
    · refine .inr ⟨hd, _, he, ?_⟩
      obtain ⟨n', t, hi, hready, n'', m, hp, -, hread⟩ := State.passTime_spec { s with free := n }
      rw [hp]
      refine ⟨by rw [hi.frame], fun hr => ?_⟩
      obtain rfl := hready hr
      refine ⟨rfl, rfl, rfl, fun a ha => ?_⟩
      by_contra h
      obtain ⟨hc, hj⟩ := not_or.1 h
      refine ha (hread a (fun c since hw hin => hc ⟨c, since, hw, hin⟩) fun j hw hin => hj ⟨j, hw, hin⟩)
  · have calm : s.tick = .next s.passTime := by simp only [State.tick, hd, hp]
    rw [step_nil hs, calm, s.passTime_calm (State.ready_of_calm hd hp) (State.not_writing_of_calm hd hp) hw]

end Sys2Proof.Machine
end

section
/-! PROOF. The Shared Memory Port: which store a host write is, and the resets. -/

namespace Sys2Proof.Machine

/-! Addresses (1.2, 1.3). -/

theorem alignWord_spec (a : Nat) : alignWord a % 4 = 0 ∧ alignWord a ≤ a ∧ a < alignWord a + 4 := by
  unfold alignWord; omega

@[simp] theorem alignWord_cellBase (c : Fin 16) : alignWord (cellBase c) = cellBase c := by
  unfold alignWord cellBase; omega

@[simp] theorem alignWord_blockBase (b : Fin 16) : alignWord (blockBase b) = blockBase b := by
  unfold alignWord blockBase; omega

theorem portTarget_cellWord {m : Nat} (h : m < 0x1000) :
    portTarget m = .cellWord (Fin.ofNat 16 (m / 256)) (m % 256) := if_pos h

@[simp] theorem portTarget_cellBase (c : Fin 16) : portTarget (cellBase c) = .cellWord c 0 := by
  have hc : Fin.ofNat 16 (256 * c.val / 256) = c := by
    apply Fin.ext; simp only [Fin.val_ofNat]; omega
  have low := cellBase_le c
  rw [portTarget_cellWord (by omega)]
  simp only [cellBase, hc, Nat.mul_mod_right]

@[simp] theorem portTarget_blockBase (b : Fin 16) : portTarget (blockBase b) = .claimWord b := by
  have hb : Fin.ofNat 16 ((blockBase b - 0x2000) / 2560) = b := by
    apply Fin.ext; simp only [Fin.val_ofNat, blockBase]; omega
  have hr : (blockBase b - 0x2000) % 2560 = 0 := by unfold blockBase; omega
  have high := blockBase_le b
  have low : 0x2000 ≤ blockBase b := by unfold blockBase; omega
  unfold portTarget
  rw [if_neg (by omega), if_neg (by omega), if_neg (by omega), if_pos (by omega), if_pos hr, hb]

theorem portTarget_published {m : Nat} (h1 : 0x1000 ≤ m) (h2 : m < 0x2000) :
    portTarget m = .statusArea ∨ portTarget m = .planPage := by
  unfold portTarget
  rw [if_neg (by omega)]
  split
  · exact .inl rfl
  · exact .inr rfl

theorem portTarget_block {m : Nat} (h1 : 0x2000 ≤ m) (h2 : m < 0xC000) :
    portTarget m = if (m - 0x2000) % 2560 = 0 then .claimWord (Fin.ofNat 16 ((m - 0x2000) / 2560)) else .blockWord := by
  unfold portTarget
  rw [if_neg (by omega), if_neg (by omega), if_neg (by omega), if_pos h2]

theorem portTarget_hostFree {m : Nat} (h1 : 0xC000 ≤ m) (h2 : m < 0x10000) : portTarget m = .hostFree := by
  unfold portTarget
  rw [if_neg (by omega), if_neg (by omega), if_neg (by omega), if_neg (by omega), if_pos h2]

theorem portTarget_unmapped {m : Nat} (h : 0x10014 ≤ m) : portTarget m = .unmapped := by
  unfold portTarget
  rw [if_neg (by omega), if_neg (by omega), if_neg (by omega), if_neg (by omega), if_neg (by omega), if_neg (by omega),
    if_neg (by omega), if_neg (by omega), if_neg (by omega), if_neg (by omega)]

theorem hostFree_range {m : Nat} (h : portTarget m = .hostFree) : 0xC000 ≤ m ∧ m < 0x10000 := by
  by_contra hn
  by_cases h1 : m < 0x1000
  · rw [portTarget_cellWord h1] at h; exact nomatch h
  by_cases h2 : m < 0x2000
  · rcases portTarget_published (by omega) h2 with e | e <;> exact nomatch e.symm.trans h
  by_cases h3 : m < 0xC000
  · rw [portTarget_block (by omega) h3] at h
    split at h <;> exact nomatch h
  unfold portTarget at h
  rw [if_neg (by omega), if_neg (by omega), if_neg (by omega), if_neg (by omega), if_neg (by omega)] at h
  split at h
  · exact nomatch h
  split at h
  · exact nomatch h
  split at h
  · exact nomatch h
  split at h
  · exact nomatch h
  split at h <;> exact nomatch h

/-! What a host write does (R1 to R3, R6, R8). -/

/-- The state after a submission (R6, R7). -/
def State.submitted (s : State) (c : Fin 16) (v : Word) : State :=
  { s with mem := s.mem.writeWord (cellBase c) v, cells := s.cells.set c .queued,
           rqi := { s.rqi with intake := s.rqi.intake ++ [c] } }

/-- A claim word given back: 0, and the mark cleared (R167). -/
def State.unclaimed (s : State) (b : Fin 16) : State :=
  { s with mem := s.mem.writeWord (blockBase b) 0, filledMarks := s.filledMarks.set b false }

/-- The states a host write of `v` at `a` can lead to. -/
inductive HostWritten (s : State) (a : Nat) (v : Word) : State → Prop where
  | discarded : HostWritten s a v s
  | notices (target : portTarget (alignWord a) = .notice) :
      HostWritten s a v { s with notice := s.notice.clearBy (.ofWord v) }
  | enables : HostWritten s a v { s with noticeMask := .ofWord v }
  | resets (target : portTarget (alignWord a) = .control) (bit : v.getLsbD 0 = true) : HostWritten s a v s.softReset
  /-- A word of the host-free region. -/
  | free (ready : s.ready = true) (low : 0xC000 ≤ alignWord a) (high : alignWord a + 4 ≤ 0x10000) :
      HostWritten s a v { s with mem := s.mem.writeWord (alignWord a) v }
  /-- A word of a HOST_OWNED cell, which submits nothing. -/
  | cell (c : Fin 16) (o : Nat) (ready : s.ready = true) (owned : s.cells[c] = .hostOwned) (inside : o + 4 ≤ 256)
      (code : o = 0 ∧ v = 0 ∨ 4 ≤ o) : HostWritten s a v { s with mem := s.mem.writeWord (cellBase c + o) v }
  | submits (c : Fin 16) (ready : s.ready = true) (owned : s.cells[c] = .hostOwned) (value : v ≠ 0) :
      HostWritten s a v (s.submitted c v)
  | returns (b : Fin 16) (ready : s.ready = true) (mark : s.filledMarks[b] = true) :
      HostWritten s a v (publish s ((s.unclaimed b).claimArrival b))

theorem State.writeCell_of_not {s : State} {c : Fin 16} (h : s.ready = false ∨ s.cells[c] ≠ .hostOwned) (o : Nat)
    (v : Word) : s.writeCell c o v = s := by
  unfold State.writeCell
  refine if_neg fun hc => ?_
  rcases h with h | h
  · exact nomatch h.symm.trans hc.1
  · exact h hc.2

theorem State.writeCell_submits {s : State} {c : Fin 16} {v : Word} (hr : s.ready = true)
    (ho : s.cells[c] = .hostOwned) (hv : v ≠ 0) : s.writeCell c 0 v = s.submitted c v := by
  unfold State.writeCell
  rw [if_pos ⟨hr, ho⟩]
  exact if_pos ⟨rfl, hv⟩

theorem State.writeCell_stores {s : State} {c : Fin 16} {o : Nat} {v : Word} (hr : s.ready = true)
    (ho : s.cells[c] = .hostOwned) (hv : o = 0 → v = 0) :
    s.writeCell c o v = { s with mem := s.mem.writeWord (cellBase c + o) v } := by
  unfold State.writeCell
  rw [if_pos ⟨hr, ho⟩]
  exact if_neg fun h => h.2 (hv h.1)

theorem State.writeClaim_of_not {s : State} {b : Fin 16} {v : Word}
    (h : s.ready = false ∨ s.filledMarks[b] = false ∨ v ≠ 0) : s.writeClaim b v = s := by
  unfold State.writeClaim
  refine if_neg fun hc => ?_
  rcases h with h | h | h
  · exact nomatch h.symm.trans hc.1
  · exact nomatch h.symm.trans hc.2.1
  · exact h hc.2.2

theorem State.writeClaim_returns {s : State} {b : Fin 16} (hr : s.ready = true) (hm : s.filledMarks[b] = true) :
    s.writeClaim b 0 = publish s ((s.unclaimed b).claimArrival b) := if_pos ⟨hr, hm, rfl⟩

theorem State.writeCell_cases (s : State) (a : Nat) (c : Fin 16) (o : Nat) (v : Word)
    (ha : alignWord a = cellBase c + o) (ho : o < 256) : HostWritten s a v (s.writeCell c o v) := by
  have al := alignWord_spec a
  have hb : cellBase c % 4 = 0 := by unfold cellBase; omega
  by_cases h : s.ready = true ∧ s.cells[c] = .hostOwned
  · by_cases hv : o = 0 ∧ v ≠ 0
    · obtain ⟨rfl, hv⟩ := hv
      rw [State.writeCell_submits h.1 h.2 hv]
      exact .submits c h.1 h.2 hv
    · rw [State.writeCell_stores h.1 h.2 fun h0 => by_contra fun hn => hv ⟨h0, hn⟩]
      refine .cell c o h.1 h.2 (by omega) ?_
      by_cases h0 : o = 0
      · exact .inl ⟨h0, by_contra fun hn => hv ⟨h0, hn⟩⟩
      · exact .inr (by omega)
  · have hs : s.writeCell c o v = s := if_neg h
    rw [hs]
    exact .discarded

theorem State.hostWrite_cases (s : State) (a : Nat) (v : Word) : HostWritten s a v (s.hostWrite a v) := by
  have hs := portTarget_spec a
  have al := alignWord_spec a
  unfold State.hostWrite
  dsimp only
  cases ht : portTarget (alignWord a) <;> rw [ht] at hs <;> dsimp only at hs ⊢
  case notice => exact .notices ht
  case noticeMask => exact .enables
  case control =>
    split
    next hb => exact .resets ht hb
    next => exact .discarded
  case hostFree =>
    split
    next hr =>
      have := hostFree_range ht
      exact .free hr (by omega) (by omega)
    next => exact .discarded
  case cellWord c o => exact s.writeCell_cases a c o v hs.1 hs.2
  case claimWord b =>
    unfold State.writeClaim
    split
    next h => exact .returns b h.1 h.2.1
    next => exact .discarded
  all_goals exact .discarded

/-- A command that is a host write is served by its port address (log 16). -/
theorem exec_portWrite {c : Instr} {a : Nat} {v : Word} (h : c.portWrite = some (a, v)) (s : State) :
    exec c s = .next (s.hostWrite a v) := by
  cases c
  case softReset => obtain ⟨rfl, rfl⟩ := Prod.mk.inj (Option.some.inj h); rfl
  case noticeWrite => obtain ⟨rfl, rfl⟩ := Prod.mk.inj (Option.some.inj h); rfl
  case noticeMaskWrite => obtain ⟨rfl, rfl⟩ := Prod.mk.inj (Option.some.inj h); rfl
  case registerWriteDiscarded => obtain ⟨rfl, rfl⟩ := Prod.mk.inj (Option.some.inj h); rfl
  case hostWorkMemoryWrite => obtain ⟨rfl, rfl⟩ := Prod.mk.inj (Option.some.inj h); rfl
  case cellCodeWordWrite => obtain ⟨rfl, rfl⟩ := Prod.mk.inj (Option.some.inj h); rfl
  case claimReturn => obtain ⟨rfl, rfl⟩ := Prod.mk.inj (Option.some.inj h); rfl
  all_goals exact nomatch h

/-! The two resets (R4). -/

theorem State.rebuildBlocks_eq (s : State) : s.rebuildBlocks = { s with
    filledMarks := Vector.ofFn fun b => decide (s.mem.readWord (blockBase b) ≠ 0),
    rpw := { blocks := Vector.ofFn fun b => if s.mem.readWord (blockBase b) = 0 then .free else .filled,
             freeList := (List.finRange 16).filter fun b => decide (s.mem.readWord (blockBase b) = 0),
             writer := none, nextSeq := ⟨1, 1⟩ } } := by
  simp [State.rebuildBlocks, State.modRpw]

/-- Settles O3: power-on reset takes the reset values, and soft reset rebuilds the blocks from the claim words. -/
theorem resetsReturnTheBlocks : Obligations.ResetsReturnTheBlocks := by
  unfold Obligations.ResetsReturnTheBlocks
  intro s
  refine ⟨rfl, fun v => ⟨fun hb => ?_, fun hb => ?_⟩⟩
  · have hw : s.hostWrite 0x1000C v = if v.getLsbD 0 then s.softReset else s := rfl
    exact congrArg Host.Outcome.next (hw.trans (if_neg (by rw [hb]; decide)))
  · have hw : s.hostWrite 0x1000C v = if v.getLsbD 0 then s.softReset else s := rfl
    have reset : s.softReset = _ := s.restart.rebuildBlocks_eq
    refine ⟨_, congrArg Host.Outcome.next ((hw.trans (if_pos hb)).trans reset), rfl,
      fun b => ⟨fun h => ?_, fun h => ?_⟩, rfl, rfl, rfl⟩
    · have h' : s.restart.mem.readWord (blockBase b) = 0 := h
      simp [h']
    · have h' : ¬ s.restart.mem.readWord (blockBase b) = 0#32 := h
      simp [h']

/-! NOTICE and NOTICE_MASK (R16, R17). -/

theorem State.noticeN_eq_false (s : State) : s.noticeN = false ↔
    (s.notice.cell = true ∧ s.noticeMask.cell = true) ∨ (s.notice.report = true ∧ s.noticeMask.report = true) ∨
    (s.notice.pipe = true ∧ s.noticeMask.pipe = true) ∨ (s.notice.fault = true ∧ s.noticeMask.fault = true) := by
  simp only [State.noticeN, Notices.anyEnabled, Bool.not_eq_false', Bool.or_eq_true, Bool.and_eq_true, or_assoc]

/-- With no flag enabled NOTICE_N is released. -/
theorem State.noticeN_of_masked {s : State} (h : s.noticeMask = .none) : s.noticeN = true := by
  simp [State.noticeN, Notices.anyEnabled, h, Notices.none]

/-- Settles O5: both writes by evaluation, and the pin by its own lemma. -/
theorem noticeRegistersAndPin : Obligations.NoticeRegistersAndPin := by
  unfold Obligations.NoticeRegistersAndPin
  intro s
  refine ⟨fun v => rfl, fun v => rfl, s.noticeN_eq_false, fun c t hc he => ?_⟩
  have masked : t.noticeMask = .none := by
    rcases hc with rfl | ⟨v, hv, rfl⟩
    · obtain rfl := next_inj he
      rfl
    · have hw : s.hostWrite 0x1000C v = if v.getLsbD 0 then s.softReset else s := rfl
      obtain rfl := next_inj he
      rw [hw, if_pos hv]
      rfl
  exact ⟨masked, State.noticeN_of_masked masked⟩

/-! Cells and claim words. -/

/-- Settles O7, from what a write to a cell's code word does. -/
theorem submittedCellsQueue : Obligations.SubmittedCellsQueue := by
  unfold Obligations.SubmittedCellsQueue
  intro c v s
  have served : exec (.cellCodeWordWrite c v) s = .next (s.writeCell c 0 v) := by
    simp [exec, execCellCodeWordWrite, State.hostWrite]
  refine ⟨fun hr ho hv => ⟨_, served.trans (congrArg _ (State.writeCell_submits hr ho hv)), rfl, ?_, fun a ha => ?_⟩,
    fun h => served.trans (congrArg _ (State.writeCell_of_not h 0 v))⟩
  · exact Memory.readWord_writeWord _ _ _
  · exact Memory.read_writeWord_off _ _ _ _ ha

/-! The Report Writer's check (R168). -/

theorem State.oldestHead_both {s : State} {f g : TouchFrame} {fs gs : List TouchFrame}
    (h0 : (s.surf .s0).held = f :: fs) (h1 : (s.surf .s1).held = g :: gs) :
    s.oldestHead = some (olderHead s.time f g) := by
  unfold State.oldestHead olderHead State.since
  rw [h0, h1]
  dsimp only [List.head?_cons]
  generalize (s.time - f.completed).toNat = x
  generalize (s.time - g.completed).toNat = y
  rcases Nat.lt_trichotomy y x with hlt | rfl | hgt
  · rw [if_pos hlt, if_pos (.inl hlt)]
  · rw [if_neg (Nat.lt_irrefl _), if_neg (Nat.lt_irrefl _)]
    by_cases hj : f.joined ≤ g.joined
    · rw [if_pos hj, if_pos (.inr ⟨rfl, hj⟩)]
    · rw [if_neg hj, if_neg (by omega)]
  · rw [if_neg (by omega), if_pos hgt, if_neg (by omega)]

/-- A write that starts is the one the oldest head asks for. -/
theorem State.startWrite_begins {s : State} {k : Surface} {f : TouchFrame} {fs : List TouchFrame} {b : Fin 16}
    {rest : List (Fin 16)} (hw : s.rpw.writer = none) (hf : s.rpw.freeList = b :: rest) (ho : s.oldestHead = some k)
    (hh : (s.surf k).held = f :: fs) : s.startWrite = s.writeBegun k f fs b rest := by
  unfold State.startWrite
  simp only [hw, hf, ho, hh]
  rfl

theorem State.startWrite_eq (s : State) : s.startWrite = s.writerChecks := by
  cases hw : s.rpw.writer with
  | some j => simp only [State.startWrite, State.writerChecks, hw]
  | none =>
    cases hf : s.rpw.freeList with
    | nil => simp only [State.startWrite, State.writerChecks, hw, hf]
    | cons b rest =>
      cases h0 : (s.surf .s0).held with
      | nil => cases h1 : (s.surf .s1).held with
        | nil => simp [State.startWrite, State.writerChecks, State.oldestHead, hw, hf, h0, h1]
        | cons g gs =>
          rw [State.startWrite_begins hw hf (by simp [State.oldestHead, h0, h1]) h1]
          simp only [State.writerChecks, hw, hf, h0, h1]
      | cons f fs => cases h1 : (s.surf .s1).held with
        | nil =>
          rw [State.startWrite_begins hw hf (by simp [State.oldestHead, h0, h1]) h0]
          simp only [State.writerChecks, hw, hf, h0, h1]
        | cons g gs =>
          have ho := State.oldestHead_both h0 h1
          simp only [State.writerChecks, hw, hf, h0, h1]
          cases hk : olderHead s.time f g with
          | s0 => exact State.startWrite_begins hw hf (ho.trans (congrArg some hk)) h0
          | s1 => exact State.startWrite_begins hw hf (ho.trans (congrArg some hk)) h1

/-- The check rewrites no status record and stores nothing. -/
theorem State.startWrite_keeps (s : State) : SameVersions s s.startWrite ∧ s.startWrite.mem = s.mem := by
  unfold State.startWrite
  split
  · split
    · exact ⟨⟨fun _ => rfl, fun _ => rfl, rfl, rfl⟩, rfl⟩
    next k _ _ _ _ _ _ _ =>
      refine ⟨⟨fun _ => rfl, fun j => ?_, rfl, rfl⟩, rfl⟩
      cases k <;> cases j <;> rfl
  · exact ⟨⟨fun _ => rfl, fun _ => rfl, rfl, rfl⟩, rfl⟩

/-- Settles O8: the claim return is published, and its last part is the Report Writer's check. -/
theorem claimReturnsFreeTheBlock : Obligations.ClaimReturnsFreeTheBlock := by
  unfold Obligations.ClaimReturnsFreeTheBlock
  intro b s
  have served : exec (.claimReturn b) s = .next (s.writeClaim b 0) := by
    simp [exec, execClaimReturn, State.hostWrite]
  refine ⟨fun hr hm => ?_, fun h => ?_⟩
  · rw [State.writeClaim_returns hr hm] at served
    have keeps := State.startWrite_keeps ((s.unclaimed b).modRpw fun r =>
      { r with blocks := r.blocks.set b .free, freeList := r.freeList ++ [b] })
    refine becomes_of_publish served ?_ ?_ keeps.1
    · exact congrArg State.bare (State.startWrite_eq _)
    · exact fun a => congrArg (·.mem.read a) (State.startWrite_eq _)
  · rcases h with h | h
    · exact served.trans (congrArg _ (State.writeClaim_of_not (.inl h)))
    · exact served.trans (congrArg _ (State.writeClaim_of_not (.inr (.inl h))))

end Sys2Proof.Machine
end

section
/-! PROOF. What a step can do, said once, and the four properties that every step keeps. -/

namespace Sys2Proof.Machine

/-! What a command can do. -/

/-- Work Memory, the cell and the engine as a completion's last word leaves them (R13). -/
def State.completed (s : State) (c : Completion) : State :=
  { s with mem := (c.writeBody s.mem).writeWord (cellBase c.cell) 0, cells := s.cells.set c.cell .hostOwned,
           notice := { s.notice with cell := true }, rqi := { s.rqi with engine := .idle } }

/-- A take moves the head of the intake queue into the engine. -/
theorem State.take_spec {s : State} {c : Fin 16} {rest : List (Fin 16)} (h : s.rqi.intake = c :: rest) :
    ∃ e : Engine, e.cells = [c] ∧
      s.take = { s with cells := s.cells.set c .taken, rqi := { s.rqi with intake := rest, engine := e } } := by
  unfold State.take
  rw [h]
  dsimp only
  split
  · exact ⟨_, rfl, rfl⟩
  · exact ⟨_, rfl, rfl⟩

/-- The ways a command takes `s` to a next state. -/
inductive Runs (c : Instr) (s : State) : State → Prop where
  | hostWrite (a : Nat) (v : Word) (t : State) (command : c.portWrite = some (a, v)) (written : HostWritten s a v t) :
      Runs c s t
  | powerOn (command : c = .powerOnReset) : Runs c s s.powerOn
  | initialises (i t : State) (before : s.ready = false) (work : Initialises s i)
      (abandoned : ∀ c : Fin 16, i.cells[c] = .hostOwned) (after : Ordinary 0 { i with ready := true } t) : Runs c s t
  | takes (cell : Fin 16) (rest : List (Fin 16)) (e : Engine) (idle : s.rqi.engine = .idle)
      (head : s.rqi.intake = cell :: rest) (taken : e.cells = [cell]) :
      Runs c s { s with cells := s.cells.set cell .taken, rqi := { s.rqi with intake := rest, engine := e } }
  | completes (x : Completion) (since : Word) (writing : s.rqi.engine = .writing x since) :
      Runs c s (s.completed x).serveCompletions
  | opens (t : State) (event : Opens c s t) : Runs c s t

theorem execInitialisationCompletion_runs (c : Instr) (s : State) :
    ∃ t, execInitialisationCompletion s = .next t ∧ Runs c s t := by
  have work := initialises_initialised s
  have abandoned := s.initialised_cells
  unfold execInitialisationCompletion
  generalize s.initialised = i at work abandoned
  by_cases hr : s.ready = true
  · rw [if_pos hr]
    exact ⟨s, rfl, .opens _ ((Ordinary.refl s).opens c)⟩
  · rw [if_neg hr]
    exact ⟨_, rfl, .initialises i _ (by simpa using hr) work abandoned ((ordinary_becomeReady i).publish i)⟩

theorem execRequestTake_runs (c : Instr) (s : State) : ∃ t, execRequestTake s = .next t ∧ Runs c s t := by
  unfold execRequestTake
  split
  next hc =>
    obtain ⟨idle, -, hne⟩ := of_decide_eq_true hc
    obtain ⟨cell, rest, head⟩ := List.exists_cons_of_ne_nil hne
    obtain ⟨e, he, taken⟩ := State.take_spec head
    exact ⟨_, rfl, taken ▸ .takes cell rest e idle head he⟩
  next => exact ⟨_, rfl, .opens _ ((Ordinary.refl s).opens c)⟩

theorem execCompletionWrite_runs (c : Instr) (s : State) : ∃ t, execCompletionWrite s = .next t ∧ Runs c s t := by
  unfold execCompletionWrite
  split
  next x since writing => exact ⟨_, rfl, .completes x since writing⟩
  all_goals exact ⟨_, rfl, .opens _ ((Ordinary.refl s).opens c)⟩

/-- A command that answers a next state of which this holds. -/
theorem runs_of_exists {c : Instr} {s t : State} {e : Result State} (h : e = .next t)
    (he : ∃ u, e = .next u ∧ Runs c s u) : Runs c s t := by
  obtain ⟨u, hu, runs⟩ := he
  exact next_inj (hu.symm.trans h) ▸ runs

theorem exec_runs {c : Instr} {s t : State} (h : exec c s = .next t) : Runs c s t := by
  by_cases hp : c.portWrite = none
  · by_cases hr : c = .powerOnReset
    · subst hr
      obtain rfl := next_inj h
      exact .powerOn rfl
    by_cases hi : c = .initialisationCompletion
    · subst hi
      exact runs_of_exists h (execInitialisationCompletion_runs _ s)
    by_cases ht : c = .requestTake
    · subst ht
      exact runs_of_exists h (execRequestTake_runs _ s)
    by_cases hc : c = .completionWrite
    · subst hc
      exact runs_of_exists h (execCompletionWrite_runs _ s)
    exact .opens t (exec_opens c s t hp hr hi ht hc h)
  · obtain ⟨⟨a, v⟩, hw⟩ := Option.ne_none_iff_exists'.1 hp
    obtain rfl := next_inj ((exec_portWrite hw s).symm.trans h)
    exact .hostWrite a v _ hw (s.hostWrite_cases a v)

/-- A step runs a command, the front one or one of the part's own, or one TU passes. -/
theorem step_runs {s t : State} (h : step s = .next t) :
    (∃ c pending n, (s.pending.head? = some c ∨ OwnCommand c) ∧ Runs c { s with pending := pending, free := n } t) ∨
      ∃ n, t = { s with free := n }.passTime := by
  by_cases hp : s.pending = []
  · rw [step_nil hp] at h
    rcases s.tick_cases with ⟨c, hc, n, he⟩ | ⟨-, n, he⟩
    · exact .inl ⟨c, s.pending, n, .inr (s.due_possible_own c hc), exec_runs (he.symm.trans h)⟩
    · exact .inr ⟨n, next_inj (h.symm.trans he)⟩
  · obtain ⟨c, rest, hc⟩ := List.exists_cons_of_ne_nil hp
    rw [step_cons hc] at h
    exact .inl ⟨c, rest, s.free, .inl (by rw [hc]; rfl), exec_runs h⟩

/-! The canonical form of Work Memory (R1, R2). -/

theorem Completion.wf_completed {s : State} (h : s.mem.wf) (c : Completion) : (s.completed c).mem.wf := by
  have := cellBase_le c.cell
  exact Memory.wf_writeWord (c.wf_writeBody h) _ _ (by omega)

theorem HostWritten.form {s t : State} {a : Nat} {v : Word} (h : HostWritten s a v t) (hw : s.mem.wf) : t.mem.wf := by
  cases h with
  | discarded => exact hw
  | notices => exact hw
  | enables => exact hw
  | resets => exact hw
  | free _ _ high => exact Memory.wf_writeWord hw _ _ high
  | cell c o _ _ inside =>
    have := cellBase_le c
    exact Memory.wf_writeWord hw _ _ (by omega)
  | submits c =>
    have := cellBase_le c
    exact Memory.wf_writeWord hw _ _ (by omega)
  | returns b =>
    have := blockBase_le b
    exact (((Ordinary.refl (s.unclaimed b)).claimArrival b).publish s).form
      (Memory.wf_writeWord hw _ _ (by omega))

theorem Opening.form {c : Instr} {s u : State} (h : Opening c s u) (hw : s.mem.wf) : u.mem.wf := by
  cases h with
  | none => exact hw
  | parks r since u engine cells ready rqi held mem => exact mem ▸ hw
  | clears u command cells ready rqi held mem => exact mem ▸ hw
  | reports j =>
    have := blockBase_le j.block
    exact Memory.wf_writeWord (WriteJob.wf_writePart hw j _) _ _ (by omega)

theorem Runs.form {c : Instr} {s t : State} (h : Runs c s t) (hw : s.mem.wf) : t.mem.wf := by
  cases h with
  | hostWrite a v t command written => exact written.form hw
  | powerOn => exact Memory.wf_nil
  | initialises i t before work abandoned after => exact after.form (work.form hw)
  | takes => exact hw
  | completes x => exact ((Ordinary.refl _).serveCompletions).form (Completion.wf_completed hw x)
  | opens t event =>
    obtain ⟨u, opening, ordinary⟩ := event
    exact ordinary.form (opening.form hw)

/-- Settles O52: every store of a command or of one TU keeps the form. -/
theorem stepsKeepMemoryForm : Obligations.StepsKeepMemoryForm := by
  unfold Obligations.StepsKeepMemoryForm
  intro s t hw h
  rcases step_runs h with ⟨c, pending, n, -, runs⟩ | ⟨n, rfl⟩
  · exact runs.form hw
  · obtain ⟨n', u, hi, -, n'', m, he, hf, -⟩ := State.passTime_spec { s with free := n }
    rw [he]
    exact hf (hi.form hw)

/-! Flags (R16, R177, R178). -/

theorem HostWritten.flags {s t : State} {a : Nat} {v : Word} (h : HostWritten s a v t)
    (hr : ¬ (portTarget (alignWord a) = .control ∧ v.getLsbD 0 = true)) :
    (portTarget (alignWord a) ≠ .notice → s.notice.keptIn t.notice) ∧ s.faultsKept t := by
  cases h with
  | notices target => exact ⟨fun h => absurd target h, s.faultsKept_refl⟩
  | resets target bit => exact absurd ⟨target, bit⟩ hr
  | returns b =>
    have event := ((Ordinary.refl (s.unclaimed b)).claimArrival b).publish s
    exact ⟨fun _ => event.notice, event.faults⟩
  | discarded => exact ⟨fun _ => s.notice.keptIn_refl, s.faultsKept_refl⟩
  | enables => exact ⟨fun _ => s.notice.keptIn_refl, s.faultsKept_refl⟩
  | free => exact ⟨fun _ => s.notice.keptIn_refl, s.faultsKept_refl⟩
  | cell => exact ⟨fun _ => s.notice.keptIn_refl, s.faultsKept_refl⟩
  | submits => exact ⟨fun _ => s.notice.keptIn_refl, s.faultsKept_refl⟩

theorem Opening.flags {c : Instr} {s u : State} (h : Opening c s u) :
    s.notice.keptIn u.notice ∧ (c ≠ .clearFaults → s.faultsKept u) := by
  cases h with
  | none => exact ⟨s.notice.keptIn_refl, fun _ => s.faultsKept_refl⟩
  | parks r since u engine cells ready rqi held mem notice faults =>
    exact ⟨notice ▸ s.notice.keptIn_refl, fun _ => faults⟩
  | clears u command cells ready rqi held mem notice =>
    exact ⟨notice ▸ s.notice.keptIn_refl, fun hc => absurd command hc⟩
  | reports => exact ⟨s.notice.keptIn_refl, fun _ => s.faultsKept_refl⟩

/-- A write to CONTROL with bit 0 set is a reset (R3). -/
theorem Instr.resets_of_control {c : Instr} {a : Nat} {v : Word} (command : c.portWrite = some (a, v))
    (target : portTarget (alignWord a) = .control) (bit : v.getLsbD 0 = true) : c.resets = true := by
  unfold Instr.resets
  split
  next => rfl
  next => simp [command, target, bit]

/-- A command that is no reset clears a NOTICE flag only by a write to NOTICE, a fault flag only by CLEAR_FAULTS. -/
theorem Runs.flags {c : Instr} {s t : State} (h : Runs c s t) (hr : c.resets = false) :
    ((∀ a v, c.portWrite = some (a, v) → portTarget (alignWord a) ≠ .notice) → s.notice.keptIn t.notice) ∧
      (c ≠ .clearFaults → s.faultsKept t) := by
  cases h with
  | hostWrite a v t command written =>
    have hn : ¬ (portTarget (alignWord a) = .control ∧ v.getLsbD 0 = true) := by
      rintro ⟨target, bit⟩
      exact nomatch hr.symm.trans (Instr.resets_of_control command target bit)
    have kept := written.flags hn
    exact ⟨fun hw => kept.1 (hw a v command), fun _ => kept.2⟩
  | powerOn command => subst command; exact nomatch hr
  | initialises i t before work abandoned after =>
    have notice := after.notice
    have faults := after.faults
    rw [work.frame] at notice faults
    exact ⟨fun _ => notice, fun _ => faults⟩
  | takes => exact ⟨fun _ => s.notice.keptIn_refl, fun _ => s.faultsKept_refl⟩
  | completes x =>
    have served := (Ordinary.refl (s.completed x)).serveCompletions
    have noticed : s.notice.keptIn (s.completed x).notice := ⟨fun _ => rfl, id, id, id⟩
    exact ⟨fun _ => Notices.keptIn_trans noticed served.notice, fun _ => served.faults⟩
  | opens t event =>
    obtain ⟨u, opening, ordinary⟩ := event
    exact ⟨fun _ => Notices.keptIn_trans opening.flags.1 ordinary.notice,
      fun hc => State.faultsKept_trans (opening.flags.2 hc) ordinary.faults⟩

/-- Settles O60. -/
theorem flagsStayUntilCleared : Obligations.FlagsStayUntilCleared := by
  unfold Obligations.FlagsStayUntilCleared
  exact fun c s t hr h => (exec_runs h).flags hr

end Sys2Proof.Machine
end

section
/-! PROOF. Every part-owned cell stays in exactly one place (R6, R7, R11, R12). -/

namespace Sys2Proof.Machine

/-- Every request is in one place, which the state of its cell names. -/
structure State.PlacesSafe (s : State) : Prop where
  apart   : (↑s.rqi.intake + s.held : Multiset (Fin 16)).Nodup
  queued  : ∀ c : Fin 16, s.cells[c] = .queued ↔ c ∈ s.rqi.intake
  taken   : ∀ c : Fin 16, s.cells[c] = .taken → c ∈ s.rqi.engine.cells
  parked  : ∀ c : Fin 16, s.cells[c] = .parked → c ∈ s.rqi.engine.cells ∨ c ∈ s.waitingCells
  waiting : ∀ c ∈ s.waitingCells, s.cells[c] = .parked
  engine  : ∀ c ∈ s.rqi.engine.cells, s.cells[c] ≠ .hostOwned

theorem State.requestCells_coe (s : State) :
    (↑s.requestCells : Multiset (Fin 16)) = ↑s.rqi.intake + s.held := by
  rw [State.held_eq]
  simp [State.requestCells, Multiset.coe_add, List.append_assoc]

/-- Before READY no request is anywhere. -/
theorem State.requestCells_eq_nil {s : State} : s.requestCells = [] ↔ s.rqi.intake = [] ∧ s.held = 0 := by
  rw [← Multiset.coe_eq_zero, State.requestCells_coe, add_eq_zero, Multiset.coe_eq_zero]

theorem State.cellsSafe_iff (s : State) : s.cellsSafe ↔
    s.codesSafe ∧ (s.ready = true → s.PlacesSafe) ∧ (s.ready = false → s.requestCells = []) := by
  unfold State.cellsSafe State.codesSafe
  refine and_congr_right fun _ => ?_
  cases hr : s.ready with
  | false => simp
  | true =>
    simp only [if_true, forall_const, reduceCtorEq, false_implies, and_true]
    rw [← Multiset.coe_nodup, State.requestCells_coe]
    exact ⟨fun ⟨a, q, t, p, w, e⟩ => ⟨a, q, t, p, w, e⟩, fun ⟨a, q, t, p, w, e⟩ => ⟨a, q, t, p, w, e⟩⟩

/-- The cells stay, and requests move on behind the intake queue: out of what waits, into the engine. -/
structure MovesOn (s t : State) : Prop where
  cells  : t.cells = s.cells
  ready  : t.ready = s.ready
  intake : t.rqi.intake = s.rqi.intake
  engine : (s.rqi.engine.cells : Multiset (Fin 16)) ≤ t.rqi.engine.cells
  held   : t.held = s.held
  codes  : ∀ c : Fin 16, t.mem.readWord (cellBase c) = s.mem.readWord (cellBase c)

/-- Code words lie below the status area. -/
theorem readWord_code_congr {m n : Memory} (h : ∀ a, a < 0x1000 ∨ 0x2000 ≤ a → n.read a = m.read a) (c : Fin 16) :
    n.readWord (cellBase c) = m.readWord (cellBase c) :=
  Memory.readWord_congr fun x h1 h2 => h x (by have := cellBase_le c; omega)

theorem Ordinary.movesOn {s t : State} (h : Ordinary 0 s t) : MovesOn s t where
  cells := h.cells
  ready := h.ready
  intake := h.intake
  engine := h.engine
  held := (add_zero t.held).symm.trans h.held
  codes := readWord_code_congr h.far

namespace MovesOn

variable {s t : State}

/-- What the engine gains is what no longer waits. -/
theorem gains (h : MovesOn s t) : ∃ m : Multiset (Fin 16),
    (↑t.rqi.engine.cells : Multiset (Fin 16)) = ↑s.rqi.engine.cells + m ∧
      (↑s.waitingCells : Multiset (Fin 16)) = m + ↑t.waitingCells := by
  obtain ⟨m, hm⟩ := Multiset.le_iff_exists_add.1 h.engine
  refine ⟨m, hm, ?_⟩
  have held := h.held
  rw [State.held_eq, State.held_eq, hm, add_assoc] at held
  exact (add_left_cancel held).symm

theorem placesSafe (h : MovesOn s t) (hs : s.PlacesSafe) : t.PlacesSafe := by
  obtain ⟨m, he, hw⟩ := h.gains
  have inEngine : ∀ c, c ∈ t.rqi.engine.cells ↔ c ∈ s.rqi.engine.cells ∨ c ∈ m := fun c => by
    rw [← Multiset.mem_coe, he, Multiset.mem_add, Multiset.mem_coe]
  have wasWaiting : ∀ c, c ∈ s.waitingCells ↔ c ∈ m ∨ c ∈ t.waitingCells := fun c => by
    rw [← Multiset.mem_coe, hw, Multiset.mem_add, Multiset.mem_coe]
  exact {
    apart := by rw [h.intake, h.held]; exact hs.apart
    queued := by rw [h.cells, h.intake]; exact hs.queued
    taken := fun c hc => (inEngine c).2 (.inl (hs.taken c (h.cells ▸ hc)))
    parked := fun c hc => by
      rw [inEngine]
      rcases hs.parked c (h.cells ▸ hc) with p | p
      · exact .inl (.inl p)
      · rcases (wasWaiting c).1 p with p | p
        · exact .inl (.inr p)
        · exact .inr p
    waiting := fun c hc => h.cells ▸ hs.waiting c ((wasWaiting c).2 (.inr hc))
    engine := fun c hc => by
      rw [h.cells]
      rcases (inEngine c).1 hc with p | p
      · exact hs.engine c p
      · rw [hs.waiting c ((wasWaiting c).2 (.inl p))]; decide }

theorem cellsSafe (h : MovesOn s t) (hs : s.cellsSafe) : t.cellsSafe := by
  obtain ⟨codes, places, before⟩ := s.cellsSafe_iff.1 hs
  refine t.cellsSafe_iff.2 ⟨fun c => ?_, fun hr => h.placesSafe (places (h.ready ▸ hr)), fun hr => ?_⟩
  · rw [h.cells, h.codes]
    exact codes c
  · obtain ⟨hi, hh⟩ := State.requestCells_eq_nil.1 (before (h.ready ▸ hr))
    exact State.requestCells_eq_nil.2 ⟨h.intake.trans hi, h.held.trans hh⟩

end MovesOn

/-- Stores that leave the code words alone. -/
theorem cellsSafe_store {s : State} (hs : s.cellsSafe) (m : Memory)
    (hm : ∀ c : Fin 16, m.readWord (cellBase c) = s.mem.readWord (cellBase c)) :
    State.cellsSafe { s with mem := m } :=
  MovesOn.cellsSafe (s := s) (t := { s with mem := m }) ⟨rfl, rfl, rfl, le_refl _, rfl, hm⟩ hs

/-! The events that change a cell's state. -/

namespace State.PlacesSafe

variable {s : State}

theorem not_queued_of_held (hs : s.PlacesSafe) {c : Fin 16} (hc : c ∈ s.held) : c ∉ s.rqi.intake := fun hq =>
  Multiset.disjoint_left.1 (Multiset.nodup_add.1 hs.apart).2.2 (Multiset.mem_coe.2 hq) hc

theorem not_waiting_of_engine (hs : s.PlacesSafe) {c : Fin 16} (hc : c ∈ s.rqi.engine.cells) :
    c ∉ s.waitingCells := fun hw => by
  have apart := (Multiset.nodup_add.1 hs.apart).2.1
  rw [State.held_eq] at apart
  exact Multiset.disjoint_left.1 (Multiset.nodup_add.1 apart).2.2 (Multiset.mem_coe.2 hc) (Multiset.mem_coe.2 hw)

theorem held_of_engine {c : Fin 16} (hc : c ∈ s.rqi.engine.cells) : c ∈ s.held := by
  rw [State.held_eq]
  exact Multiset.mem_add.2 (.inl (Multiset.mem_coe.2 hc))

/-- A HOST_OWNED cell has no request. -/
theorem not_requested (hs : s.PlacesSafe) {c : Fin 16} (hc : s.cells[c] = .hostOwned) :
    c ∉ s.rqi.intake ∧ c ∉ s.held := by
  refine ⟨fun h => ?_, fun h => ?_⟩
  · exact CellState.noConfusion (hc.symm.trans ((hs.queued c).2 h))
  rw [State.held_eq, Multiset.mem_add, Multiset.mem_coe, Multiset.mem_coe] at h
  rcases h with h | h
  · exact hs.engine c h hc
  · exact nomatch hc.symm.trans (hs.waiting c h)

end State.PlacesSafe

/-- Before READY the engine is idle. -/
theorem State.ready_of_engine {s : State} (hs : s.cellsSafe) {c : Fin 16} (hc : c ∈ s.rqi.engine.cells) :
    s.ready = true := by
  by_contra hr
  have none := (s.cellsSafe_iff.1 hs).2.2 (by simpa using hr)
  have held := (State.requestCells_eq_nil.1 none).2
  exact Multiset.notMem_zero c (held ▸ State.PlacesSafe.held_of_engine hc)

/-- A part-owned cell keeps its code word whatever part-owned state it goes on to. -/
theorem codesSafe_set {s : State} (hs : s.codesSafe) {c : Fin 16} (hc : s.cells[c] ≠ .hostOwned) {x : CellState}
    (hx : x ≠ .hostOwned) (d : Fin 16) :
    (s.cells.set c x)[d] = .hostOwned ↔ s.mem.readWord (cellBase d) = 0 := by
  rw [getElem_set_cell]
  split
  next h => subst h; exact ⟨fun e => absurd e hx, fun e => absurd ((hs d).2 e) hc⟩
  next => exact hs d

/-- A cell's code word is written, and the cell's state with it. -/
theorem codesSafe_write {s : State} (hs : s.codesSafe) {c : Fin 16} {x : CellState} {m : Memory}
    (hm : ∀ a, ¬ inRange a (cellBase c) 256 → m.read a = s.mem.read a)
    (hx : x = .hostOwned ↔ m.readWord (cellBase c) = 0) (d : Fin 16) :
    (s.cells.set c x)[d] = .hostOwned ↔ m.readWord (cellBase d) = 0 := by
  rw [getElem_set_cell]
  split
  next h => subst h; exact hx
  next h =>
    have apart := cellBase_apart h
    rw [hs d, Memory.readWord_congr fun x h1 h2 => hm x (by unfold inRange; omega)]

/-- The request of a take parks: its cell leaves the engine and waits (R11). -/
theorem cellsSafe_parks {s u : State} {r : RequestRecord} {since : Word} (hs : s.cellsSafe)
    (engine : s.rqi.engine = .taking r since) (cells : u.cells = s.cells.set r.cell .parked) (ready : u.ready = s.ready)
    (rqi : u.rqi = { s.rqi with engine := .idle }) (held : u.held = s.held) (mem : u.mem = s.mem) : u.cellsSafe := by
  obtain ⟨codes, places, -⟩ := s.cellsSafe_iff.1 hs
  have inEngine : ∀ c, c ∈ s.rqi.engine.cells ↔ c = r.cell := fun c => by simp [engine, Engine.cells]
  have up := State.ready_of_engine hs ((inEngine r.cell).2 rfl)
  have safe := places up
  have wait : ∀ c, c ∈ u.waitingCells ↔ c = r.cell ∨ c ∈ s.waitingCells := fun c => by
    rw [State.held_eq, State.held_eq, rqi, engine] at held
    have he : (↑u.waitingCells : Multiset (Fin 16)) = {r.cell} + ↑s.waitingCells := by
      simpa [Engine.cells] using held
    rw [← Multiset.mem_coe, he, Multiset.mem_add, Multiset.mem_singleton, Multiset.mem_coe]
  refine u.cellsSafe_iff.2 ⟨?_, fun _ => ?_, fun hr => nomatch (ready ▸ up).symm.trans hr⟩
  · unfold State.codesSafe
    rw [cells, mem]
    exact codesSafe_set codes (safe.engine r.cell ((inEngine _).2 rfl)) (by decide)
  · have intake : u.rqi.intake = s.rqi.intake := by rw [rqi]
    have idle : u.rqi.engine.cells = [] := by rw [rqi]; rfl
    refine ⟨by rw [intake, held]; exact safe.apart, fun c => ?_, fun c hc => ?_, fun c hc => .inr ?_, fun c hc => ?_,
      by simp [idle]⟩
    · rw [cells, intake, getElem_set_cell]
      split
      next h =>
        subst h
        exact ⟨nofun, fun hq => absurd hq (safe.not_queued_of_held
          (State.PlacesSafe.held_of_engine ((inEngine _).2 rfl)))⟩
      next => exact safe.queued c
    · rw [cells, getElem_set_cell] at hc
      split at hc
      next => exact nomatch hc
      next h => exact absurd ((inEngine c).1 (safe.taken c hc)) h
    · rw [cells, getElem_set_cell] at hc
      rw [wait]
      split at hc
      next h => exact .inl h
      next h => exact .inr ((safe.parked c hc).resolve_left fun he => h ((inEngine c).1 he))
    · rw [cells, getElem_set_cell]
      split
      next => rfl
      next h => exact safe.waiting c (((wait c).1 hc).resolve_left h)

theorem Opening.cellsSafe {c : Instr} {s u : State} (h : Opening c s u) (hs : s.cellsSafe) : u.cellsSafe := by
  cases h with
  | none => exact hs
  | parks r since u engine cells ready rqi held mem => exact cellsSafe_parks hs engine cells ready rqi held mem
  | clears u command cells ready rqi held mem notice =>
    exact MovesOn.cellsSafe ⟨cells, ready, by rw [rqi], by rw [rqi], held, fun c => by rw [mem]⟩ hs
  | reports j writer marks seq =>
    refine cellsSafe_store hs _ fun c => Memory.readWord_congr fun x h1 h2 => ?_
    have low := cellBase_le c
    have high : 0x2000 ≤ blockBase j.block := by unfold blockBase; omega
    rw [Memory.read_writeWord_off _ _ _ _ (by omega), j.read_writePart_off _ _ _ (by unfold inRange; omega)]

/-- A take moves the head of the intake queue into the engine (R10). -/
theorem cellsSafe_takes {s : State} {cell : Fin 16} {rest : List (Fin 16)} {e : Engine} (hs : s.cellsSafe)
    (idle : s.rqi.engine = .idle) (head : s.rqi.intake = cell :: rest) (taken : e.cells = [cell]) :
    State.cellsSafe { s with cells := s.cells.set cell .taken, rqi := { s.rqi with intake := rest, engine := e } } := by
  obtain ⟨codes, places, before⟩ := s.cellsSafe_iff.1 hs
  have up : s.ready = true := by
    by_contra hr
    have none := (State.requestCells_eq_nil.1 (before (by simpa using hr))).1
    exact nomatch none.symm.trans head
  have safe := places up
  have isQueued : s.cells[cell] = .queued := (safe.queued cell).2 (by simp [head])
  have none : s.rqi.engine.cells = [] := by rw [idle]; rfl
  have notEngine : ∀ c, c ∉ s.rqi.engine.cells := fun c => by simp [none]
  have apart : (↑(cell :: rest) + s.held : Multiset (Fin 16)).Nodup := head ▸ safe.apart
  refine (State.cellsSafe_iff _).2 ⟨codesSafe_set codes (by rw [isQueued]; decide) (by decide), fun _ => ?_,
    fun hr => nomatch up.symm.trans hr⟩
  refine ⟨?_, fun c => ?_, fun c hc => ?_, fun c hc => ?_, fun c hc => ?_, fun c hc => ?_⟩
  · have he : (↑(cell :: rest) + s.held : Multiset (Fin 16)) = ↑rest + State.held
        { s with cells := s.cells.set cell .taken, rqi := { s.rqi with intake := rest, engine := e } } := by
      simp only [State.held, Rqi.held, taken, none, ← Multiset.cons_coe, ← Multiset.singleton_add,
        Multiset.coe_nil, zero_add]
      ac_rfl
    exact he ▸ apart
  · dsimp only
    rw [getElem_set_cell]
    split
    next h =>
      subst h
      have once : c ∉ rest := (List.nodup_cons.1 (Multiset.coe_nodup.1 (Multiset.nodup_add.1 apart).1)).1
      exact ⟨nofun, fun hq => absurd hq once⟩
    next h => rw [safe.queued c, head, List.mem_cons, or_iff_right h]
  · dsimp only at hc ⊢
    rw [getElem_set_cell] at hc
    split at hc
    next h => rw [taken]; exact List.mem_singleton.2 h
    next => exact absurd (safe.taken c hc) (notEngine c)
  · dsimp only at hc ⊢
    rw [getElem_set_cell] at hc
    split at hc
    next => exact nomatch hc
    next => exact .inr ((safe.parked c hc).resolve_left (notEngine c))
  · dsimp only
    have parked := safe.waiting c hc
    rw [getElem_set_cell, if_neg fun h => by rw [h, isQueued] at parked; exact nomatch parked]
    exact parked
  · dsimp only at hc ⊢
    rw [taken, List.mem_singleton] at hc
    rw [getElem_set_cell, if_pos hc]
    decide

/-- A completion's last word gives its cell back to the host (R13). -/
theorem cellsSafe_completed {s : State} {x : Completion} {since : Word} (hs : s.cellsSafe)
    (writing : s.rqi.engine = .writing x since) : (s.completed x).cellsSafe := by
  obtain ⟨codes, places, before⟩ := s.cellsSafe_iff.1 hs
  have inEngine : ∀ c, c ∈ s.rqi.engine.cells ↔ c = x.cell := fun c => by simp [writing, Engine.cells]
  have up := State.ready_of_engine hs ((inEngine x.cell).2 rfl)
  have safe := places up
  have low := cellBase_le x.cell
  refine (State.cellsSafe_iff _).2 ⟨codesSafe_write codes (fun a ha => ?_) ?_, fun _ => ?_,
    fun hr => nomatch up.symm.trans hr⟩
  · unfold inRange at ha
    refine (Memory.read_writeWord_off _ _ _ _ (by omega)).trans ?_
    exact x.read_words_off _ _ (fun _ h => h) a (by unfold inRange; omega)
  · exact ⟨fun _ => Memory.readWord_writeWord _ _ _, fun _ => rfl⟩
  · have held : s.held = {x.cell} + (s.completed x).held := by
      simp only [State.held, Rqi.held, State.completed, writing, Engine.cells, Multiset.coe_nil, Multiset.coe_singleton]
      ac_rfl
    refine ⟨?_, fun c => ?_, fun c hc => ?_, fun c hc => .inr ?_, fun c hc => ?_,
      fun c hc => by exact absurd hc List.not_mem_nil⟩
    · refine Multiset.nodup_of_le ?_ safe.apart
      rw [held]
      exact add_le_add_right (Multiset.le_add_left _ _) _
    · unfold State.completed
      dsimp only
      rw [getElem_set_cell]
      split
      next h =>
        exact ⟨nofun, fun hq => absurd hq (safe.not_queued_of_held
          (State.PlacesSafe.held_of_engine ((inEngine c).2 h)))⟩
      next => exact safe.queued c
    · unfold State.completed at hc
      dsimp only at hc
      rw [getElem_set_cell] at hc
      split at hc
      next => exact nomatch hc
      next h => exact absurd ((inEngine c).1 (safe.taken c hc)) h
    · unfold State.completed at hc
      dsimp only at hc
      rw [getElem_set_cell] at hc
      split at hc
      next => exact nomatch hc
      next h => exact (safe.parked c hc).resolve_left fun he => h ((inEngine c).1 he)
    · have waits : c ∈ s.waitingCells := hc
      unfold State.completed
      dsimp only
      rw [getElem_set_cell, if_neg fun h => safe.not_waiting_of_engine ((inEngine c).2 h) waits]
      exact safe.waiting c waits

/-- A submission queues its cell (R6, R7). -/
theorem cellsSafe_submitted {s : State} {c : Fin 16} {v : Word} (hs : s.cellsSafe) (ready : s.ready = true)
    (owned : s.cells[c] = .hostOwned) (value : v ≠ 0) : (s.submitted c v).cellsSafe := by
  obtain ⟨codes, places, before⟩ := s.cellsSafe_iff.1 hs
  have safe := places ready
  obtain ⟨notQueued, notHeld⟩ := safe.not_requested owned
  refine (State.cellsSafe_iff _).2 ⟨codesSafe_write codes (fun a ha => ?_) ?_, fun _ => ?_,
    fun hr => nomatch ready.symm.trans hr⟩
  · exact Memory.read_writeWord_off _ _ _ _ (by unfold inRange at ha; omega)
  · exact ⟨nofun, fun h => absurd ((Memory.readWord_writeWord _ _ _).symm.trans h) value⟩
  · have other : ∀ {d : Fin 16} {y : CellState}, y ≠ .queued → (s.submitted c v).cells[d] = y → s.cells[d] = y :=
      fun {d y} hy hd => by
        unfold State.submitted at hd
        dsimp only at hd
        rw [getElem_set_cell] at hd
        split at hd
        next => exact absurd hd.symm hy
        next => exact hd
    have stays : ∀ {d : Fin 16}, s.cells[d] ≠ .hostOwned → (s.submitted c v).cells[d] = s.cells[d] := fun {d} hd => by
      unfold State.submitted
      dsimp only
      rw [getElem_set_cell, if_neg (by rintro rfl; exact hd owned)]
    refine ⟨?_, fun d => ?_, fun d hd => safe.taken d (other (by decide) hd),
      fun d hd => safe.parked d (other (by decide) hd), fun d hd => ?_, fun d hd => ?_⟩
    · have he : (↑(s.rqi.intake ++ [c]) + s.held : Multiset (Fin 16)) = c ::ₘ (↑s.rqi.intake + s.held) := by
        rw [← Multiset.coe_add, Multiset.coe_singleton, ← Multiset.singleton_add]
        ac_rfl
      have apart : (↑(s.rqi.intake ++ [c]) + s.held : Multiset (Fin 16)).Nodup := by
        rw [he, Multiset.nodup_cons, Multiset.mem_add, Multiset.mem_coe]
        exact ⟨by simp [notQueued, notHeld], safe.apart⟩
      exact apart
    · unfold State.submitted
      dsimp only
      rw [getElem_set_cell, List.mem_append, List.mem_singleton]
      split
      next h => exact ⟨fun _ => .inr h, fun _ => rfl⟩
      next h => rw [safe.queued d, or_iff_left h]
    · have parked := safe.waiting d hd
      rw [stays (by rw [parked]; decide), parked]
    · have part := safe.engine d hd
      rw [stays part]
      exact part

theorem HostWritten.cellsSafe {s t : State} {a : Nat} {v : Word} (h : HostWritten s a v t) (hs : s.cellsSafe) :
    t.cellsSafe := by
  cases h with
  | discarded => exact hs
  | notices => exact hs
  | enables => exact hs
  | resets =>
    obtain ⟨marks, w, he, -⟩ := s.restart.rebuildBlocks_spec
    have reset : s.softReset = _ := he
    rw [reset]
    exact (State.cellsSafe_iff _).2 ⟨(s.cellsSafe_iff.1 hs).1, nofun, fun _ => rfl⟩
  | free _ low =>
    refine cellsSafe_store hs _ fun c => Memory.readWord_congr fun x h1 h2 => ?_
    have := cellBase_le c
    exact Memory.read_writeWord_off _ _ _ _ (by omega)
  | cell c o ready owned inside code =>
    refine cellsSafe_store hs _ fun d => ?_
    have zero := ((s.cellsSafe_iff.1 hs).1 c).1 owned
    by_cases hd : d = c
    · subst hd
      rcases code with ⟨rfl, rfl⟩ | code
      · rw [zero]; exact Memory.readWord_writeWord _ _ _
      · exact Memory.readWord_congr fun x h1 h2 => Memory.read_writeWord_off _ _ _ _ (by omega)
    · have apart := cellBase_apart hd
      exact Memory.readWord_congr fun x h1 h2 => Memory.read_writeWord_off _ _ _ _ (by omega)
  | submits c ready owned value => exact cellsSafe_submitted hs ready owned value
  | returns b =>
    refine ((((Ordinary.refl (s.unclaimed b)).claimArrival b).publish s).movesOn).cellsSafe ?_
    refine cellsSafe_store hs (s.mem.writeWord (blockBase b) 0) fun c => Memory.readWord_congr fun x h1 h2 => ?_
    have low := cellBase_le c
    have high : 0x2000 ≤ blockBase b := by unfold blockBase; omega
    exact Memory.read_writeWord_off _ _ _ _ (by omega)

/-- With every cell HOST_OWNED no request is anywhere, before READY and at READY. -/
theorem cellsSafe_abandoned {s i : State} (hs : s.cellsSafe) (before : s.ready = false) (work : Initialises s i)
    (abandoned : ∀ c : Fin 16, i.cells[c] = .hostOwned) : State.cellsSafe { i with ready := true } := by
  obtain ⟨codes, -, none⟩ := s.cellsSafe_iff.1 hs
  have empty : i.requestCells = [] := by
    rw [work.frame]
    exact none before
  obtain ⟨intake, held⟩ := State.requestCells_eq_nil.1 empty
  refine (State.cellsSafe_iff _).2 ⟨work.codes codes, fun _ => ?_, nofun⟩
  have noState : ∀ {c : Fin 16} {x : CellState}, x ≠ .hostOwned → i.cells[c] ≠ x := fun hx h =>
    hx (h.symm.trans (abandoned _))
  have noPlace : ∀ c, c ∉ i.held := fun c => by rw [held]; exact Multiset.notMem_zero c
  simp only [State.held_eq, Multiset.mem_add, Multiset.mem_coe, not_or] at noPlace
  exact {
    apart := by
      have : (↑i.rqi.intake + i.held : Multiset (Fin 16)).Nodup := by simp [intake, held]
      exact this
    queued := fun c => ⟨fun h => absurd h (noState (by decide)), fun h => by
      have : c ∈ i.rqi.intake := h
      simp [intake] at this⟩
    taken := fun c h => absurd h (noState (by decide))
    parked := fun c h => absurd h (noState (by decide))
    waiting := fun c h => absurd h (noPlace c).2
    engine := fun c h => absurd h (noPlace c).1 }

theorem Runs.cellsSafe {c : Instr} {s t : State} (h : Runs c s t) (hs : s.cellsSafe) : t.cellsSafe := by
  cases h with
  | hostWrite a v t command written => exact written.cellsSafe hs
  | powerOn =>
    refine (State.cellsSafe_iff _).2 ⟨fun c => ?_, nofun, fun _ => rfl⟩
    simp [State.powerOn, Memory.readWord, Memory.read, wordOfBytes]
  | initialises i t before work abandoned after =>
    exact after.movesOn.cellsSafe (cellsSafe_abandoned hs before work abandoned)
  | takes cell rest e idle head taken => exact cellsSafe_takes hs idle head taken
  | completes x since writing =>
    exact (Ordinary.refl _).serveCompletions.movesOn.cellsSafe (cellsSafe_completed hs writing)
  | opens t event =>
    obtain ⟨u, opening, ordinary⟩ := event
    exact ordinary.movesOn.cellsSafe (opening.cellsSafe hs)

/-- One TU stores behind the code words alone, and before READY abandons cells. -/
theorem State.passTime_cellsSafe {s : State} (hs : s.cellsSafe) : s.passTime.cellsSafe := by
  obtain ⟨n, u, work, up, n', m, he, -, read⟩ := s.passTime_spec
  have codes : ∀ c : Fin 16, m.readWord (cellBase c) = u.mem.readWord (cellBase c) := fun c => by
    refine Memory.readWord_congr fun x h1 h2 => read x (fun y since hy => ?_) fun j hj => ?_
    · unfold inRange cellBase at *
      omega
    · have := cellBase_le c
      unfold inRange blockBase
      omega
  rw [he]
  refine MovesOn.cellsSafe (s := u) ⟨rfl, rfl, rfl, le_refl _, rfl, codes⟩ ?_
  by_cases hr : s.ready = true
  · rw [up hr]
    exact hs
  · obtain ⟨codes, -, none⟩ := s.cellsSafe_iff.1 hs
    have down : s.ready = false := by simpa using hr
    refine u.cellsSafe_iff.2 ⟨work.codes codes, fun h => ?_, fun _ => ?_⟩
    · rw [work.frame] at h
      exact absurd h hr
    · rw [work.frame]
      exact none down

/-- Settles O53: whatever a step runs keeps the cells and the requests in step. -/
theorem stepsKeepCellsSafe : Obligations.StepsKeepCellsSafe := by
  unfold Obligations.StepsKeepCellsSafe
  intro s t hs h
  have cells : s.cellsSafe := hs.2.1
  rcases step_runs h with ⟨c, pending, n, -, runs⟩ | ⟨n, rfl⟩
  · exact runs.cellsSafe cells
  · exact State.passTime_cellsSafe (s := { s with free := n }) cells

end Sys2Proof.Machine
end

section
/-! PROOF. The part's own events leave the host's memory alone (R2, R6, R13, R15, R166, R170). -/

namespace Sys2Proof.Machine

/-- The bytes the part may not write: the host-free region, the HOST_OWNED cells and the FILLED blocks. -/
def State.hostMemory (s : State) (a : Nat) : Prop :=
  0xC000 ≤ a ∨ (∃ c : Fin 16, s.cells[c] = .hostOwned ∧ inRange a (cellBase c) 256) ∨
    ∃ b : Fin 16, s.rpw.blocks[b] = .filled ∧ inRange a (blockBase b) 2560

namespace State.hostMemory

variable {s : State} {a : Nat}

/-- None of it lies in the status area or the plan pages. -/
theorem unpublished (h : s.hostMemory a) : a < 0x1000 ∨ 0x2000 ≤ a := by
  rcases h with h | ⟨c, -, h⟩ | ⟨b, -, h⟩
  · omega
  · have := cellBase_le c
    unfold inRange at h
    omega
  · unfold inRange blockBase at h
    omega

/-- None of it lies in a part-owned cell. -/
theorem not_in_cell (h : s.hostMemory a) {c : Fin 16} (hc : s.cells[c] ≠ .hostOwned) :
    ¬ inRange a (cellBase c) 256 := by
  have low := cellBase_le c
  rcases h with h | ⟨d, hd, h⟩ | ⟨b, -, h⟩
  · unfold inRange
    omega
  · have apart := cellBase_apart (c := c) (d := d) fun e => hc (e ▸ hd)
    unfold inRange at h ⊢
    omega
  · unfold inRange blockBase at h
    unfold inRange
    omega

/-- None of it lies in the block being written. -/
theorem not_in_block (h : s.hostMemory a) (hs : s.blocksSafe) {j : WriteJob} (hj : s.rpw.writer = some j) :
    ¬ inRange a (blockBase j.block) 2560 := by
  obtain ⟨-, -, writing, -⟩ := hs
  have isWriting : s.rpw.blocks[j.block] = .writing := (writing j.block).2 (by rw [hj]; rfl)
  rcases h with h | ⟨d, -, h⟩ | ⟨b, hb, h⟩
  · have := blockBase_le j.block
    unfold inRange
    omega
  · have := cellBase_le d
    unfold inRange at h
    unfold inRange blockBase
    omega
  · have apart := blockBase_apart (b := b) (d := j.block) fun e => by
      subst e
      exact BlockState.noConfusion (hb.symm.trans isWriting)
    unfold inRange at h ⊢
    omega

/-- The work of an initialisation leaves it alone. -/
theorem initialises (h : s.hostMemory a) {t : State} (work : Initialises s t) : t.mem.read a = s.mem.read a := by
  rcases h with h | ⟨c, hc, h⟩ | ⟨b, -, h⟩
  · exact work.far a (by omega)
  · exact work.kept c a hc h
  · exact work.far a (by unfold inRange blockBase at h; omega)

end State.hostMemory

theorem Opening.leavesHostMemory {c : Instr} {s u : State} (h : Opening c s u) (hs : s.blocksSafe) {a : Nat}
    (ha : s.hostMemory a) : u.mem.read a = s.mem.read a := by
  cases h with
  | none => rfl
  | parks r since u engine cells ready rqi held mem => rw [mem]
  | clears u command cells ready rqi held mem => rw [mem]
  | reports j writer =>
    have out := ha.not_in_block hs writer
    unfold inRange at out
    rw [Memory.read_writeWord_off _ _ _ _ (by omega), j.read_writePart_off _ _ _ (by unfold inRange; omega)]

theorem Runs.leavesHostMemory {c : Instr} {s t : State} (h : Runs c s t) (own : OwnCommand c) (cells : s.cellsSafe)
    (blocks : s.blocksSafe) {a : Nat} (ha : s.hostMemory a) : t.mem.read a = s.mem.read a := by
  cases h with
  | hostWrite a' v t command => exact nomatch own.1.symm.trans command
  | powerOn command => exact absurd command own.2
  | initialises i t before work abandoned after =>
    exact (after.far a ha.unpublished).trans (ha.initialises (t := i) work)
  | takes => rfl
  | completes x since writing =>
    have inEngine : x.cell ∈ s.rqi.engine.cells := by simp [writing, Engine.cells]
    have safe := (s.cellsSafe_iff.1 cells).2.1 (State.ready_of_engine cells inEngine)
    have out := ha.not_in_cell (safe.engine x.cell inEngine)
    unfold inRange at out
    refine ((Ordinary.refl _).serveCompletions.far a ha.unpublished).trans ?_
    refine (Memory.read_writeWord_off _ _ _ _ (by omega)).trans ?_
    exact x.read_words_off _ _ (fun _ h => h) a (by unfold inRange; omega)
  | opens t event =>
    obtain ⟨u, opening, ordinary⟩ := event
    exact (ordinary.far a ha.unpublished).trans (opening.leavesHostMemory blocks ha)

theorem State.passTime_leavesHostMemory {s : State} (cells : s.cellsSafe) (blocks : s.blocksSafe) {a : Nat}
    (ha : s.hostMemory a) : s.passTime.mem.read a = s.mem.read a := by
  obtain ⟨n, u, work, -, n', m, he, -, read⟩ := s.passTime_spec
  rw [he]
  refine (read a (fun x since writing => ?_) fun j hj => ?_).trans ?_
  · have inEngine : x.cell ∈ s.rqi.engine.cells := by simp [writing, Engine.cells]
    have safe := (s.cellsSafe_iff.1 cells).2.1 (State.ready_of_engine cells inEngine)
    have out := ha.not_in_cell (safe.engine x.cell inEngine)
    unfold inRange at out ⊢
    omega
  · have out := ha.not_in_block blocks hj
    unfold inRange at out ⊢
    omega
  · exact State.hostMemory.initialises (s := { s with time := s.time + 1, free := n }) ha work

/-- Settles O59: of the part's own events, each store lies in a part-owned cell, the block being written, the status area
or the plan pages. -/
theorem partLeavesHostMemoryAlone : Obligations.PartLeavesHostMemoryAlone := by
  unfold Obligations.PartLeavesHostMemoryAlone
  intro s t hs h front a ha
  obtain ⟨-, cells, -, -, -, blocks, -, -⟩ := hs
  rcases step_runs h with ⟨c, pending, n, hc, runs⟩ | ⟨n, rfl⟩
  · have own : OwnCommand c := by
      rcases hc with hc | hc
      · exact front c hc
      · exact hc
    exact runs.leavesHostMemory own cells blocks ha
  · exact State.passTime_leavesHostMemory (s := { s with free := n }) cells blocks ha

/-! The reset state (R4, R6, R20, R165). -/

theorem PipeState.reset_coherent : PipeState.reset.coherent := by
  constructor
  case bursts => exact nofun
  all_goals decide

theorem PipeState.reset_bounded : PipeState.reset.bounded := by
  constructor
  case contracts => exact fun _ h => by rcases h with h | h <;> exact nomatch h
  case plans => exact fun _ h => by rcases h with h | h <;> exact nomatch h
  case slot => exact ⟨by decide, fun _ => rfl, nofun⟩
  case bands => exact ⟨by decide, nofun⟩
  case bandLines => exact nofun
  all_goals decide

theorem SurfaceState.reset_bounded (k : Surface) : (SurfaceState.reset k).bounded k := by
  constructor
  case geometry => cases k <;> unfold Geometry.inRange <;> decide
  all_goals cases k <;> decide

theorem State.reset_cellsSafe : State.reset.cellsSafe :=
  (State.cellsSafe_iff _).2 ⟨by unfold State.codesSafe; decide, nofun, fun _ => rfl⟩

theorem State.reset_pipesSafe : State.reset.pipesSafe := by
  refine ⟨fun p => ?_, fun h => ?_, fun _ => ⟨rfl, fun p => ?_⟩⟩
  · cases p <;> exact PipeState.reset_coherent
  · rcases h.1 with h | h <;> exact nomatch h
  · cases p <;> rfl

theorem State.reset_bankSafe : State.reset.bankSafe :=
  ⟨nofun, fun _ => ⟨rfl, rfl, rfl⟩, nofun, fun k _ h => by cases k <;> exact nomatch h⟩

theorem State.reset_sensingSafe : State.reset.sensingSafe := by
  refine ⟨fun _ h => ?_, fun k _ h => ?_, rfl⟩
  · exact nomatch h
  · cases k <;> exact nomatch h

theorem State.reset_blocksSafe : State.reset.blocksSafe :=
  ⟨List.nodup_finRange 16, by decide, by decide, by decide, by decide, fun k => by cases k <;> decide⟩

theorem State.reset_bounded : State.reset.bounded := by
  refine ⟨fun p => ?_, fun k => ?_, ⟨by decide, nofun, .nil⟩, by decide, by decide, by decide⟩
  · cases p <;> exact PipeState.reset_bounded
  · cases k <;> exact SurfaceState.reset_bounded _

/-- Settles O2: the reset state is safe, part by part. -/
theorem resetStateIsSafe : Obligations.ResetStateIsSafe := by
  unfold Obligations.ResetStateIsSafe
  exact ⟨Memory.wf_nil, State.reset_cellsSafe, State.reset_pipesSafe, State.reset_bankSafe, State.reset_sensingSafe,
    State.reset_blocksSafe, State.reset_bounded, nofun⟩

end Sys2Proof.Machine
end

section
/-! PROOF. Host reads and writes by region and register, and transactions word by word (R1 to R3, 12.1). -/

namespace Sys2Proof.Machine

/-! Reads. -/

theorem State.hostRead_memory (s : State) {a : BitVec 24} (h : alignWord a.toNat < 0x10000) :
    s.hostRead a = s.mem.readWord (alignWord a.toNat) := by
  unfold State.hostRead
  generalize alignWord a.toNat = w at h
  dsimp only
  by_cases cell : w < 0x1000
  · rw [portTarget_cellWord cell]
  by_cases published : w < 0x2000
  · rcases portTarget_published (by omega) published with e | e <;> rw [e]
  by_cases block : w < 0xC000
  · rw [portTarget_block (by omega) block]
    by_cases first : (w - 0x2000) % 2560 = 0
    · rw [if_pos first]
    · rw [if_neg first]
  · rw [portTarget_hostFree (by omega) h]

theorem State.hostRead_unmapped (s : State) {a : BitVec 24} (h : 0x10014 ≤ alignWord a.toNat) : s.hostRead a = 0 := by
  unfold State.hostRead
  dsimp only
  rw [portTarget_unmapped h]

theorem State.hostRead_register (s : State) {a : BitVec 24} {w : Nat} (h : alignWord a.toNat = w) :
    (w = 0x10000 → s.hostRead a = identWord s.ready) ∧ (w = 0x10004 → s.hostRead a = s.notice.toWord) ∧
    (w = 0x10008 → s.hostRead a = s.noticeMask.toWord) ∧ (w = 0x1000C → s.hostRead a = 0) ∧
    (w = 0x10010 → s.hostRead a = s.time) := by
  unfold State.hostRead
  rw [h]
  refine ⟨?_, ?_, ?_, ?_, ?_⟩
  all_goals rintro rfl; rfl

theorem identWord_fields (ready : Bool) :
    (identWord ready).extractLsb' 0 16 = 0x0420#16 ∧ (identWord ready).extractLsb' 16 8 = 0x01#8 ∧
    (identWord ready).extractLsb' 24 7 = 0x2C#7 ∧ (identWord ready).getLsbD 31 = ready := by
  cases ready <;> decide

theorem Notices.toWord_bits (n : Notices) :
    n.toWord.toNat < 16 ∧ n.toWord.getLsbD 0 = n.cell ∧ n.toWord.getLsbD 1 = n.report ∧
    n.toWord.getLsbD 2 = n.pipe ∧ n.toWord.getLsbD 3 = n.fault := by
  have flags : ∀ cell report pipe fault : Bool,
      let v := Notices.toWord ⟨cell, report, pipe, fault⟩
      v.toNat < 16 ∧ v.getLsbD 0 = cell ∧ v.getLsbD 1 = report ∧ v.getLsbD 2 = pipe ∧ v.getLsbD 3 = fault := by decide
  exact flags n.cell n.report n.pipe n.fault

/-! Writes to registers that discard them (R185). -/

theorem State.hostWrite_discarded (s : State) {a : Nat} (v : Word)
    (h : 0x10000 ≤ a ∧ a < 0x10004 ∨ 0x10010 ≤ a) : s.hostWrite a v = s := by
  have al := alignWord_spec a
  unfold State.hostWrite
  dsimp only
  by_cases high : 0x10014 ≤ alignWord a
  · rw [portTarget_unmapped high]
  · have low : alignWord a = 0x10000 ∨ alignWord a = 0x10010 := by omega
    rcases low with e | e <;> rw [e] <;> rfl

/-! Writes to Work Memory. -/

/-- What is left of a write of `v` at `w`: the stored word and nothing else, or nothing at all. -/
def State.StoredIf (s : State) (w : Nat) (v : Word) (stored : Prop) (t : State) : Prop :=
  t = { s with mem := t.mem } ∧ (¬ stored → t = s) ∧
  (stored → t.mem.readWord w = v ∧ ∀ b, ¬ inRange b w 4 → t.mem.read b = s.mem.read b)

theorem State.storedIf_of_stored {s : State} {w : Nat} {v : Word} {stored : Prop} (h : stored) :
    s.StoredIf w v stored { s with mem := s.mem.writeWord w v } :=
  ⟨rfl, fun n => absurd h n, fun _ => ⟨Memory.readWord_writeWord _ _ _, fun b hb => Memory.read_writeWord_off _ _ _ b hb⟩⟩

theorem State.storedIf_of_not {s : State} {w : Nat} {v : Word} {stored : Prop} (h : ¬ stored) : s.StoredIf w v stored s :=
  ⟨rfl, fun _ => rfl, fun n => absurd n h⟩

/-- A write that neither submits nor returns a claim word (R2, R6, R8). -/
theorem State.hostWrite_storedIf (s : State) {a : Nat} {v : Word} (small : a < 0x10000)
    (noSubmission : a < 0x1000 → alignWord a % 256 = 0 → v = 0)
    (noReturn : 0x2000 ≤ a ∧ a < 0xC000 → (alignWord a - 0x2000) % 2560 = 0 → v ≠ 0) :
    s.StoredIf (alignWord a) v
      (s.ready = true ∧ (0xC000 ≤ a ∨ a < 0x1000 ∧ s.cells[(Fin.ofNat 16 (a / 256) : Fin 16)] = .hostOwned))
      (s.hostWrite a v) := by
  have al := alignWord_spec a
  unfold State.hostWrite
  dsimp only
  by_cases cell : a < 0x1000
  · have same : alignWord a / 256 = a / 256 := by omega
    rw [portTarget_cellWord (by omega), same]
    dsimp only
    by_cases h : s.ready = true ∧ s.cells[(Fin.ofNat 16 (a / 256) : Fin 16)] = .hostOwned
    · have at_ : cellBase (Fin.ofNat 16 (a / 256)) + alignWord a % 256 = alignWord a := by
        simp only [cellBase, Fin.val_ofNat]; omega
      rw [State.writeCell_stores h.1 h.2 (noSubmission cell), at_]
      exact State.storedIf_of_stored ⟨h.1, .inr ⟨cell, h.2⟩⟩
    · have discarded : s.writeCell (Fin.ofNat 16 (a / 256)) (alignWord a % 256) v = s := if_neg h
      rw [discarded]
      refine State.storedIf_of_not fun hs => ?_
      rcases hs.2 with high | owned
      · omega
      · exact h ⟨hs.1, owned.2⟩
  by_cases high : 0xC000 ≤ a
  · rw [portTarget_hostFree (by omega) (by omega)]
    dsimp only
    split
    next ready => exact State.storedIf_of_stored ⟨ready, .inl high⟩
    next ready => exact State.storedIf_of_not fun hs => ready hs.1
  · have outside : ¬ (s.ready = true ∧
        (0xC000 ≤ a ∨ a < 0x1000 ∧ s.cells[(Fin.ofNat 16 (a / 256) : Fin 16)] = .hostOwned)) := by
      rintro ⟨-, h | h⟩
      · exact high h
      · exact cell h.1
    by_cases published : a < 0x2000
    · rcases portTarget_published (m := alignWord a) (by omega) (by omega) with e | e <;> rw [e] <;>
        exact State.storedIf_of_not outside
    · rw [portTarget_block (by omega) (by omega)]
      by_cases first : (alignWord a - 0x2000) % 2560 = 0
      · rw [if_pos first]
        dsimp only
        rw [State.writeClaim_of_not (.inr (.inr (noReturn (by omega) first)))]
        exact State.storedIf_of_not outside
      · rw [if_neg first]
        exact State.storedIf_of_not outside

/-! Transactions: the command of one word, by its aligned address. -/

theorem setWidth_toNat {a : BitVec 24} (h : alignWord a.toNat < 0x10000) : (a.setWidth 16).toNat = a.toNat := by
  have al := alignWord_spec a.toNat
  rw [BitVec.toNat_setWidth]
  omega

theorem hostWriteCommand_submits {a : BitVec 24} {v : Word} (low : alignWord a.toNat < 0x1000)
    (first : alignWord a.toNat % 256 = 0) (value : v ≠ 0) :
    hostWriteCommand a v = .cellCodeWordWrite (Fin.ofNat 16 (alignWord a.toNat / 256)) v := by
  unfold hostWriteCommand
  rw [portTarget_cellWord low]
  exact if_pos ⟨first, value⟩

theorem hostWriteCommand_returns {a : BitVec 24} (low : 0x2000 ≤ alignWord a.toNat) (high : alignWord a.toNat < 0xC000)
    (first : (alignWord a.toNat - 0x2000) % 2560 = 0) :
    hostWriteCommand a 0 = .claimReturn (Fin.ofNat 16 ((alignWord a.toNat - 0x2000) / 2560)) := by
  unfold hostWriteCommand
  rw [portTarget_block low high, if_pos first]
  rfl

theorem hostWriteCommand_stores {a : BitVec 24} {v : Word} (low : alignWord a.toNat < 0x10000)
    (noSubmission : ¬ (alignWord a.toNat < 0x1000 ∧ alignWord a.toNat % 256 = 0 ∧ v ≠ 0))
    (noReturn : ¬ (0x2000 ≤ alignWord a.toNat ∧ alignWord a.toNat < 0xC000 ∧
      (alignWord a.toNat - 0x2000) % 2560 = 0 ∧ v = 0)) :
    hostWriteCommand a v = .hostWorkMemoryWrite (a.setWidth 16) v := by
  unfold hostWriteCommand
  generalize alignWord a.toNat = w at low noSubmission noReturn
  by_cases cell : w < 0x1000
  · rw [portTarget_cellWord cell]
    exact if_neg fun h => noSubmission ⟨cell, h⟩
  by_cases published : w < 0x2000
  · rcases portTarget_published (by omega) published with e | e <;> rw [e]
  by_cases block : w < 0xC000
  · rw [portTarget_block (by omega) block]
    by_cases first : (w - 0x2000) % 2560 = 0
    · rw [if_pos first]
      exact if_neg fun h => noReturn ⟨by omega, block, first, h⟩
    · rw [if_neg first]
  · rw [portTarget_hostFree (by omega) low]

theorem hostWriteCommand_register {a : BitVec 24} {w : Nat} (v : Word) (h : alignWord a.toNat = w) :
    (w = 0x10004 → hostWriteCommand a v = .noticeWrite v) ∧
    (w = 0x10008 → hostWriteCommand a v = .noticeMaskWrite v) ∧ (w = 0x1000C → hostWriteCommand a v = .softReset v) := by
  unfold hostWriteCommand
  rw [h]
  refine ⟨?_, ?_, ?_⟩
  all_goals rintro rfl; rfl

theorem hostWriteCommand_discarded {a : BitVec 24} (v : Word)
    (h : alignWord a.toNat = 0x10000 ∨ 0x10010 ≤ alignWord a.toNat) :
    hostWriteCommand a v = .registerWriteDiscarded a v := by
  have al := alignWord_spec a.toNat
  unfold hostWriteCommand
  by_cases high : 0x10014 ≤ alignWord a.toNat
  · rw [portTarget_unmapped high]
  · have low : alignWord a.toNat = 0x10000 ∨ alignWord a.toNat = 0x10010 := by omega
    rcases low with e | e <;> rw [e] <;> rfl

/-- A command of a transaction is the command of a word at the address that its place names. -/
theorem transactionCommands_get {start : BitVec 24} {words : List Word} {i : Nat} {v : Word} {c : Instr}
    (hv : words[i]? = some v) (hc : (transactionCommands start words)[i]? = some c)
    (top : alignWord start.toNat + 4 * i < 2 ^ 24) :
    ∃ a, alignWord a.toNat = alignWord start.toNat + 4 * i ∧ c = hostWriteCommand a v := by
  obtain ⟨hi, -⟩ := List.getElem?_eq_some_iff.1 hv
  obtain ⟨a, ha, at_⟩ := transactionAddresses_get start words.length i hi top
  refine ⟨a, at_, ?_⟩
  rw [transactionCommands, List.getElem?_zipWith, ha, hv] at hc
  exact (Option.some.inj hc).symm

/-- Settles O6: reads, discarded and stored writes and transactions, each from the table of port targets. -/
theorem hostWritesByRegion : Obligations.HostWritesByRegion := by
  unfold Obligations.HostWritesByRegion
  refine ⟨fun a s => ?_, fun a v s h => congrArg _ (s.hostWrite_discarded v h), fun a v s => ?_, fun start words s => ?_⟩
  · obtain ⟨ident, notice, mask, control, time⟩ := s.hostRead_register (a := a) rfl
    refine ⟨s.hostRead_memory, fun h => ?_, fun h => ?_, fun h => ?_, control, time, s.hostRead_unmapped⟩
    · rw [ident h]; exact identWord_fields s.ready
    · rw [notice h]; exact s.notice.toWord_bits
    · rw [mask h]; exact s.noticeMask.toWord_bits
  · intro w cell block stored noSubmission noReturn
    exact ⟨s.hostWrite a.toNat v, rfl, s.hostWrite_storedIf a.isLt noSubmission noReturn⟩
  · refine ⟨by simp [State.hostReads], fun i hi top => ?_, transactionCommands start words, rfl,
      transactionCommands_length start words, fun i v c hv hc top => ?_⟩
    · obtain ⟨a, ha, at_⟩ := transactionAddresses_get start words.length i hi top
      exact ⟨a, at_, by rw [State.hostReads, List.getElem?_map, ha]; rfl⟩
    · obtain ⟨a, at_, rfl⟩ := transactionCommands_get hv hc top
      have place : start.toNat / 4 * 4 + 4 * i = alignWord a.toNat := at_.symm
      simp only [place]
      obtain ⟨notice, mask, control⟩ := hostWriteCommand_register (a := a) v rfl
      refine ⟨fun h => hostWriteCommand_submits h.1 h.2.1 h.2.2, fun h => ?_, fun low noSubmission noReturn => ?_,
        notice, mask, control, fun h => ⟨a, rfl, hostWriteCommand_discarded v h⟩⟩
      · obtain ⟨low, high, first, rfl⟩ := h
        exact hostWriteCommand_returns low high first
      · refine ⟨a.setWidth 16, ?_, hostWriteCommand_stores low noSubmission noReturn⟩
        rw [setWidth_toNat low]
        rfl

end Sys2Proof.Machine
end

section
/-! PROOF. The Request Intake (R9, R10, R13): a take serves the queue's head, and a completion reaches its cell. -/

namespace Sys2Proof.Machine

/-- Settles O9: a known kind goes into its take, and any other is answered at once. -/
theorem takesServeTheQueueHead : Obligations.TakesServeTheQueueHead := by
  unfold Obligations.TakesServeTheQueueHead
  intro s
  refine ⟨fun c rest idle empty head => ?_, fun h => ?_⟩
  · have can : s.canTake = true := decide_eq_true ⟨idle, empty, by simp [head]⟩
    have takes : exec .requestTake s = .next s.take := congrArg _ (if_pos can)
    rw [takes]
    unfold State.take
    rw [head]
    refine ⟨fun known => congrArg _ (if_pos (decide_eq_true known)), fun unknown => congrArg _ (if_neg fun h => ?_)⟩
    have := of_decide_eq_true h
    unfold State.recordOf at this
    omega
  · have cannot : ¬ s.canTake = true := fun can => by
      obtain ⟨idle, empty, some⟩ := of_decide_eq_true can
      rcases h with h | h | h
      · exact h idle
      · exact h empty
      · exact some h
    exact congrArg _ (if_neg cannot)

/-! The words of a completion, read back (12.2). -/

theorem Memory.readWord_writeWord_apart (m : Memory) (a : Nat) (w : Word) {b : Nat} (h : b + 4 ≤ a ∨ a + 4 ≤ b) :
    (m.writeWord a w).readWord b = m.readWord b :=
  Memory.readWord_congr fun x _ _ => Memory.read_writeWord_off m a w x (by omega)

theorem Memory.readWord_writeWords_apart (m : Memory) (ws : List (Nat × Word)) {b : Nat}
    (h : ∀ x ∈ ws, b + 4 ≤ x.1 ∨ x.1 + 4 ≤ b) : (m.writeWords ws).readWord b = m.readWord b :=
  Memory.readWord_congr fun x _ _ => Memory.read_writeWords_off m ws x fun y hy => by
    have := h y hy
    unfold inRange
    omega

theorem Memory.writeWords_append (m : Memory) (xs ys : List (Nat × Word)) :
    m.writeWords (xs ++ ys) = (m.writeWords xs).writeWords ys := List.foldl_append ..

/-- A word of a run of words reads back. -/
theorem Memory.readWord_writeWords_wordsFrom (m : Memory) {a i : Nat} {ws : List Word} {w : Word} (h : ws[i]? = some w) :
    (m.writeWords (wordsFrom a ws)).readWord (a + 4 * i) = w := by
  induction ws generalizing m a i with
  | nil => exact nomatch h
  | cons x ws ih =>
    cases i with
    | zero =>
      obtain rfl := Option.some.inj h
      have behind : ∀ y ∈ wordsFrom (a + 4) ws, a + 4 ≤ y.1 := fun y hy => (wordsFrom_bound hy).1
      exact (Memory.readWord_writeWords_apart (m.writeWord a x) _ fun y hy => .inl (behind y hy)).trans
        (Memory.readWord_writeWord m a x)
    | succ i =>
      have := ih (m.writeWord a x) (a := a + 4) (i := i) h
      rw [show a + 4 * (i + 1) = a + 4 + 4 * i by omega]
      exact this

/-- The item index of a completion, where there is one, as a word of its cell. -/
def Completion.itemWords (c : Completion) : List (Nat × Word) :=
  match c.item with
  | some k => [(cellBase c.cell + 0x0C, BitVec.ofNat 32 k)]
  | none => []

/-- The item index, then the results, then the status word. -/
theorem Completion.writeBody_eq (c : Completion) (m : Memory) (h : c.results.length ≤ 4) :
    c.writeBody m = ((m.writeWords c.itemWords).writeWords (wordsFrom (cellBase c.cell + 0x10) c.results)).writeWord
      (cellBase c.cell + 4) c.statusWord := by
  have words : c.words = c.itemWords ++ wordsFrom (cellBase c.cell + 0x10) c.results ++
      [(cellBase c.cell + 4, c.statusWord)] := by
    unfold Completion.words
    rw [List.take_of_length_le h]
    rfl
  unfold Completion.writeBody
  rw [words, Memory.writeWords_append, Memory.writeWords_append]
  rfl

theorem Completion.itemWords_at {c : Completion} {x : Nat × Word} (h : x ∈ c.itemWords) :
    c.item.isSome = true ∧ x.1 = cellBase c.cell + 0x0C := by
  unfold Completion.itemWords at h
  cases item : c.item with
  | none => rw [item] at h; exact nomatch h
  | some k =>
    rw [item] at h
    obtain rfl := List.mem_singleton.1 h
    exact ⟨rfl, rfl⟩

/-- Settles O10: each word reads back past the words stored after it. -/
theorem completionsReachTheCell : Obligations.CompletionsReachTheCell := by
  unfold Obligations.CompletionsReachTheCell
  intro s c since writing small
  have ends : exec .completionWrite s = .next (s.completed c).serveCompletions := by
    unfold exec execCompletionWrite
    rw [writing]
    rfl
  have mem : (s.completed c).serveCompletions.mem = (((s.mem.writeWords c.itemWords).writeWords
      (wordsFrom (cellBase c.cell + 0x10) c.results)).writeWord (cellBase c.cell + 4) c.statusWord).writeWord
      (cellBase c.cell) 0 := by
    rw [State.serveCompletions_eq, ← c.writeBody_eq s.mem small]
    rfl
  refine ⟨_, ends, by rw [State.serveCompletions_eq]; rfl, ?_⟩
  rw [mem]
  refine ⟨Memory.readWord_writeWord .., ?_, fun k item => ?_, fun i w result => ?_, fun a code items results => ?_⟩
  · rw [Memory.readWord_writeWord_apart _ _ _ (by omega)]
    exact Memory.readWord_writeWord ..
  · rw [Memory.readWord_writeWord_apart _ _ _ (by omega), Memory.readWord_writeWord_apart _ _ _ (by omega),
      Memory.readWord_writeWords_apart _ _ fun x hx => ?_]
    · unfold Completion.itemWords
      rw [item]
      exact Memory.readWord_writeWord ..
    · have := wordsFrom_bound hx
      omega
  · rw [Memory.readWord_writeWord_apart _ _ _ (by omega), Memory.readWord_writeWord_apart _ _ _ (by omega)]
    exact Memory.readWord_writeWords_wordsFrom _ result
  · unfold inRange at code items results
    rw [Memory.read_writeWord_off _ _ _ _ (by omega), Memory.read_writeWord_off _ _ _ _ (by omega),
      Memory.read_writeWords_off _ _ _ fun x hx => ?_, Memory.read_writeWords_off _ _ _ fun x hx => ?_]
    · obtain ⟨some, at_⟩ := Completion.itemWords_at hx
      rw [at_]
      exact fun h => items ⟨some, h⟩
    · have := wordsFrom_bound hx
      unfold inRange
      omega

end Sys2Proof.Machine
end

section
/-! PROOF. The target and values steps of the request kinds (R10), and NEGOTIATE (R49). -/

namespace Sys2Proof.Machine

/-! A command that decides a request. -/

theorem decision_eq {kind : Nat} {f : State → RequestRecord → State} {s : State} {r : RequestRecord}
    (h : s.takes kind r) : decision kind f s = .next (publish s (f s r)) := by
  unfold decision
  rw [State.taken_eq_some.2 h]

/-- A decision that leaves the records' versions and stores nothing. -/
theorem becomes_of_decision {c : Instr} {kind : Nat} {f : State → RequestRecord → State} {s u : State}
    {r : RequestRecord} (he : exec c s = decision kind f s) (h : s.takes kind r) (hf : f s r = u)
    (hv : SameVersions s u) : Becomes c s u :=
  becomes_of_publish (he.trans (decision_eq h)) (congrArg _ hf) (fun a => congrArg (·.mem.read a) hf) (hf ▸ hv)

theorem SameVersions.refl (s : State) : SameVersions s s := ⟨fun _ => rfl, fun _ => rfl, rfl, rfl⟩

theorem State.answer_versions (s : State) (r : RequestRecord) (status : Status) (item : Option Nat)
    (results : List Word) : SameVersions s (s.answer r status item results) :=
  ⟨fun _ => rfl, fun _ => rfl, rfl, rfl⟩

theorem becomes_answer {c : Instr} {kind : Nat} {f : State → RequestRecord → State} {s : State} {r : RequestRecord}
    {status : Status} {item : Option Nat} {results : List Word} (he : exec c s = decision kind f s)
    (h : s.takes kind r) (hf : f s r = s.answer r status item results) :
    Becomes c s (s.answer r status item results) :=
  becomes_of_decision he h hf (s.answer_versions r status item results)

/-! Targets (1.7). -/

theorem RequestRecord.pipeTarget_of {r : RequestRecord} {p : Pipe} (h : r.targetsPipe p) : r.pipeTarget = some p := by
  unfold RequestRecord.targetsPipe at h
  unfold RequestRecord.pipeTarget
  rw [h]
  cases p <;> rfl

theorem RequestRecord.pipeTarget_none {r : RequestRecord} (h0 : r.u8 0x08 ≠ 0x00) (h1 : r.u8 0x08 ≠ 0x01) :
    r.pipeTarget = none := by
  unfold RequestRecord.pipeTarget
  rw [if_neg h0, if_neg h1]

theorem RequestRecord.surfaceTarget_of {r : RequestRecord} {k : Surface} (h : r.targetsSurface k) :
    r.surfaceTarget = some k := by
  unfold RequestRecord.targetsSurface at h
  unfold RequestRecord.surfaceTarget
  rw [h]
  cases k <;> rfl

theorem RequestRecord.surfaceTarget_none {r : RequestRecord} (h0 : r.u8 0x08 ≠ 0x10) (h1 : r.u8 0x08 ≠ 0x11) :
    r.surfaceTarget = none := by
  unfold RequestRecord.surfaceTarget
  rw [if_neg h0, if_neg h1]

theorem RequestRecord.pipeTarget_not_p1 {r : RequestRecord} (h : r.u8 0x08 ≠ 0x01) :
    r.pipeTarget = none ∨ r.pipeTarget = some .p0 := by
  unfold RequestRecord.pipeTarget
  rw [if_neg h]
  split
  · exact .inr rfl
  · exact .inl rfl

/-! The first failing item of a list. -/

theorem firstFailing_nil (i : Nat) : ¬ firstFailing [] i := fun h => nomatch h.1

theorem firstFailing_cons {x : Bool} {xs : List Bool} {i : Nat} :
    firstFailing (x :: xs) i ↔ i = 0 ∧ x = false ∨ x = true ∧ ∃ j, i = j + 1 ∧ firstFailing xs j := by
  constructor
  · rintro ⟨fails, before⟩
    cases i with
    | zero => exact .inl ⟨rfl, Option.some.inj fails⟩
    | succ j =>
      exact .inr ⟨Option.some.inj (before 0 (by omega)), j, rfl, fails, fun k hk => before (k + 1) (by omega)⟩
  · rintro (⟨rfl, rfl⟩ | ⟨rfl, j, rfl, fails, before⟩)
    · exact ⟨rfl, fun k hk => absurd hk (by omega)⟩
    · refine ⟨fails, fun k hk => ?_⟩
      cases k with
      | zero => rfl
      | succ k => exact before k (by omega)

/-- Items checked one by one stop at the first that fails. -/
theorem checkItems_error {α : Type} {item : Nat → Option α} {n k i : Nat}
    (h : firstFailing ((List.range n).map fun j => (item (k + j)).isSome) i) : checkItems item n k = .error (k + i) := by
  induction n generalizing k i with
  | zero => exact absurd h (firstFailing_nil i)
  | succ n ih =>
    have shift : (List.range (n + 1)).map (fun j => (item (k + j)).isSome) =
        (item k).isSome :: (List.range n).map fun j => (item (k + 1 + j)).isSome := by
      rw [List.range_succ_eq_map, List.map_cons, List.map_map]
      refine congrArg _ (List.map_congr_left fun j _ => ?_)
      rw [Function.comp_apply, show k + (j + 1) = k + 1 + j by omega]
    rw [shift, firstFailing_cons] at h
    unfold checkItems
    rcases h with ⟨rfl, fails⟩ | ⟨passes, j, rfl, rest⟩
    · rw [Option.isSome_eq_false_iff, Option.isNone_iff_eq_none] at fails
      rw [fails]
      rfl
    · obtain ⟨x, passes⟩ := Option.isSome_iff_exists.1 passes
      rw [passes, ih rest]
      dsimp only
      rw [show k + 1 + j = k + (j + 1) by omega]

theorem within_eq_false {n lo hi : Nat} : within n lo hi = false ↔ n < lo ∨ hi < n := by
  unfold within
  rw [decide_eq_false_iff_not]
  omega

theorem within_eq_true {n lo hi : Nat} : within n lo hi = true ↔ lo ≤ n ∧ n ≤ hi := by
  unfold within
  rw [decide_eq_true_eq]

/-! The items of each kind. -/

/-- The ranges of an offer, as the statement of its items puts them (3.2). -/
theorem Offer.inRange_iff (o : Offer) : o.inRange = true ↔
    (within o.f 200000 4000000 = true ∧ within o.w 0 16 = true ∧ (o.lw = 0 ∨ within o.lw 2000 80000 = true)) ∧
    (o.cadence = .relaxed → within o.fr o.f 4000000 = true) ∧
    (o.cadence = .lockedRef ∨ o.cadence = .lockedPeer → o.offset < o.f ∧ within o.trimMax 8 2048 = true) := by
  simp only [within_eq_true]
  unfold Offer.inRange
  cases o.cadence <;> simp <;> omega

theorem RequestRecord.offer_isSome (r : RequestRecord) (k : Nat) : (r.offer k).isSome = r.offerOk k := by
  unfold RequestRecord.offer RequestRecord.offerOk RequestRecord.offerRead offerField
  dsimp only
  generalize r.u8 (0x24 + 20 * (k - 1) + 19) = code
  have kept : ∀ o : Offer, (if o.inRange then some o else none).isSome = o.inRange := fun o => by
    cases o.inRange <;> rfl
  match code with
  | 0 => simp [cadenceOfCode, within]
  | n + 5 => simp [cadenceOfCode, within]
  | 1 | 2 | 3 | 4 =>
    simp only [cadenceOfCode, kept]
    rw [Bool.eq_iff_iff, Offer.inRange_iff]
    simp [and_assoc, within]

theorem RequestRecord.setOffersArgs_error {r : RequestRecord} {i : Nat} (h : firstFailing r.offerItems i) :
    r.setOffersArgs = .error i := by
  unfold RequestRecord.offerItems at h
  unfold RequestRecord.setOffersArgs
  rw [firstFailing_cons] at h
  rcases h with ⟨rfl, fails⟩ | ⟨passes, j, rfl, rest⟩
  · rw [Bool.and_eq_false_iff, within_eq_false, within_eq_false] at fails
    exact if_neg (by omega)
  · rw [Bool.and_eq_true, within_eq_true, within_eq_true] at passes
    rw [if_pos (by omega), checkItems_error (i := j), Nat.add_comm 1 j]
    · rfl
    · simpa only [RequestRecord.offer_isSome, Nat.add_comm 1] using rest

theorem RequestRecord.setQuietArgs_error {r : RequestRecord} {i : Nat} (h : firstFailing r.quietItems i) :
    r.setQuietArgs = .error i := by
  unfold RequestRecord.quietItems at h
  unfold RequestRecord.setQuietArgs
  rw [firstFailing_cons] at h
  rcases h with ⟨rfl, fails⟩ | ⟨passes, j, rfl, rest⟩
  · rw [Bool.and_eq_false_iff, within_eq_false, within_eq_false] at fails
    exact if_neg (by omega)
  · rw [Bool.and_eq_true, within_eq_true, within_eq_true] at passes
    have spans : ∀ k, (r.span k).isSome = decide ((r.spanRead k).start < (r.spanRead k).stop ∧
        (r.spanRead k).stop ≤ 4000000) := fun k => by
      unfold RequestRecord.span RequestRecord.spanRead
      dsimp only
      by_cases h : r.u32 (0x24 + 8 * (k - 1)) < r.u32 (0x28 + 8 * (k - 1)) ∧ r.u32 (0x28 + 8 * (k - 1)) ≤ 4000000
      · rw [if_pos h, decide_eq_true h]; rfl
      · rw [if_neg h, decide_eq_false h]; rfl
    rw [if_pos (by omega), checkItems_error (i := j), Nat.add_comm 1 j]
    · rfl
    · simpa only [spans, Nat.add_comm 1] using rest

theorem PipeState.bandLines_eq (x : PipeState) : x.pb.bandLines = x.bandLimit := by
  unfold PlanBuilder.bandLines PipeState.bandLimit
  cases x.pb.contract <;> rfl

theorem RequestRecord.bandArgs_error {r : RequestRecord} {v i : Nat} (h : firstFailing (r.bandItems v) i) :
    r.bandArgs v = .error (i + 1) := by
  simp only [RequestRecord.bandItems, firstFailing_cons, firstFailing_nil, within_eq_false, within_eq_true,
    decide_eq_false_iff_not, decide_eq_true_eq, and_false, exists_false, or_false] at h
  unfold RequestRecord.bandArgs
  rcases h with ⟨rfl, fails⟩ | ⟨first, _, rfl, ⟨rfl, fails⟩ | ⟨last, _, rfl, rfl, fails⟩⟩
  · exact if_pos (by omega)
  · rw [if_neg (by omega), if_pos (by omega)]
  · rw [if_neg (by omega), if_neg (by omega), if_pos (by omega)]

theorem refSourceOfCode_none {n : Nat} : refSourceOfCode n = none ↔ n < 1 ∨ 2 < n := by
  match n with
  | 0 => simp [refSourceOfCode]
  | 1 => simp [refSourceOfCode]
  | 2 => simp [refSourceOfCode]
  | n + 3 => simp [refSourceOfCode]

theorem RequestRecord.setReferenceArgs_error {r : RequestRecord} {i : Nat} (h : firstFailing r.referenceItems i) :
    r.setReferenceArgs = .error (i + 1) := by
  simp only [RequestRecord.referenceItems, firstFailing_cons, firstFailing_nil, within_eq_false, within_eq_true,
    and_false, exists_false, or_false] at h
  unfold RequestRecord.setReferenceArgs
  rcases h with ⟨rfl, fails⟩ | ⟨source, _, rfl, rfl, fails⟩
  · rw [refSourceOfCode_none.2 fails]
  · have known : refSourceOfCode (r.u8 0x20) ≠ none := fun h => by
      have := refSourceOfCode_none.1 h
      omega
    obtain ⟨src, found⟩ := Option.ne_none_iff_exists'.1 known
    rw [found]
    exact if_neg (by omega)

theorem RequestRecord.setSurfaceArgs_error {r : RequestRecord} {k : Surface} {i : Nat}
    (h : firstFailing (r.surfaceItems k) i) : r.setSurfaceArgs k = .error (i + 1) := by
  unfold RequestRecord.setSurfaceArgs
  cases k with
  | s0 =>
    simp only [RequestRecord.surfaceItems, RequestRecord.geometryRead, firstFailing_cons, firstFailing_nil,
      within_eq_false, within_eq_true, and_false, exists_false, or_false] at h
    dsimp only
    rcases h with ⟨rfl, fails⟩ | ⟨rows, _, rfl, ⟨rfl, fails⟩ | ⟨cols, _, rfl, ⟨rfl, fails⟩ | ⟨nodes, _, rfl, rfl, fails⟩⟩⟩
    · exact if_pos fails
    · rw [if_neg (by omega)]; exact if_pos fails
    · rw [if_neg (by omega), if_neg (by omega), if_pos (by omega)]
    · rw [if_neg (by omega), if_neg (by omega), if_neg (by omega), if_pos fails]
  | s1 =>
    simp only [RequestRecord.surfaceItems, RequestRecord.geometryRead, firstFailing_cons, firstFailing_nil,
      within_eq_false, within_eq_true, and_false, exists_false, or_false, if_true] at h
    dsimp only
    rcases h with ⟨rfl, fails⟩ | ⟨rows, _, rfl, ⟨rfl, fails⟩ | ⟨cols, _, rfl, ⟨rfl, fails⟩ | ⟨nodes, _, rfl,
      ⟨rfl, fails⟩ | ⟨rowTime, _, rfl, ⟨rfl, fails⟩ | ⟨interval, _, rfl, ⟨rfl, fails⟩ | ⟨window, _, rfl, rfl, fails⟩⟩⟩⟩⟩⟩
    · exact if_pos fails
    · rw [if_neg (by omega)]; exact if_pos fails
    · rw [if_neg (by omega), if_neg (by omega), if_pos (by omega)]
    · rw [if_neg (by omega), if_neg (by omega), if_neg (by omega), if_pos fails]
    · rw [if_neg (by omega), if_neg (by omega), if_neg (by omega), if_neg (by omega), if_pos fails]
    · rw [if_neg (by omega), if_neg (by omega), if_neg (by omega), if_neg (by omega), if_neg (by omega),
        if_pos (by omega)]
    · rw [if_neg (by omega), if_neg (by omega), if_neg (by omega), if_neg (by omega), if_neg (by omega),
        if_neg (by omega), if_pos (by omega)]

theorem RequestRecord.enableArg_error {r : RequestRecord} {i : Nat} (h : firstFailing [within (r.u8 0x20) 0 1] i) :
    r.enableArg = .error (i + 1) := by
  simp only [firstFailing_cons, firstFailing_nil, within_eq_false, and_false, exists_false, or_false] at h
  obtain ⟨rfl, fails⟩ := h
  unfold RequestRecord.enableArg
  rw [if_neg (by omega), if_neg (by omega)]

theorem policyOfCode_none {n : Nat} (h : n < 1 ∨ 3 < n) : policyOfCode n = none := by
  match n with
  | 0 => rfl
  | 1 => omega
  | 2 => omega
  | 3 => omega
  | n + 4 => rfl

theorem RequestRecord.policyArg_error {r : RequestRecord} {i : Nat} (h : firstFailing [within (r.u8 0x20) 1 3] i) :
    r.policyArg = .error (i + 1) := by
  simp only [firstFailing_cons, firstFailing_nil, within_eq_false, and_false, exists_false, or_false] at h
  obtain ⟨rfl, fails⟩ := h
  unfold RequestRecord.policyArg
  rw [policyOfCode_none fails]

/-- A source that takes a selector takes 0 or 1. -/
theorem selector_isSome (n : Nat) :
    (pipeOfSelector n).isSome = within n 0 1 ∧ (surfaceOfSelector n).isSome = within n 0 1 := by
  match n with
  | 0 => exact ⟨rfl, rfl⟩
  | 1 => exact ⟨rfl, rfl⟩
  | n + 2 => simp [pipeOfSelector, surfaceOfSelector, within]

theorem RequestRecord.pinEntry_isSome (r : RequestRecord) (k : Nat) : (r.pinEntry k).isSome = r.pinOk k := by
  unfold RequestRecord.pinEntry RequestRecord.pinOk
  generalize r.u8 (0x20 + 2 * (k - 1)) = code
  have selector := selector_isSome (r.u8 (0x21 + 2 * (k - 1)))
  match code with
  | 0 => rfl
  | 1 => simpa [pinSourceOfEntry, within] using selector.1
  | 2 => rfl
  | 3 => simpa [pinSourceOfEntry, within] using selector.2
  | 4 => simpa [pinSourceOfEntry, within] using selector.1
  | 5 => rfl
  | 6 => rfl
  | 7 => rfl
  | n + 8 => simp [pinSourceOfEntry, within]

theorem RequestRecord.pinArgs_error {r : RequestRecord} {i : Nat} (h : firstFailing r.pinItems i) :
    r.pinArgs = .error (i + 1) := by
  unfold RequestRecord.pinArgs
  have items : (List.range 4).map (fun j => (r.pinEntry (1 + j)).isSome) = r.pinItems := by
    simp only [RequestRecord.pinEntry_isSome]
    rfl
  rw [checkItems_error (items ▸ h), Nat.add_comm]

/-! Both steps of R10. -/

theorem becomes_badTarget_restart {s : State} {r : RequestRecord} (h : s.takes 0x04 r) (target : r.pipeTarget = none) :
    Becomes .pipeRestart s (s.answer r .badTarget none []) := by
  have served : exec .pipeRestart s = .next (s.answer r .badTarget none []) := by
    unfold exec execPipeRestart
    rw [State.taken_eq_some.2 h]
    dsimp only
    unfold State.decidePipeRestart
    rw [target]
    rfl
  exact becomes_of_next served rfl fun _ => rfl

theorem becomes_badTarget_pipe {s : State} {r : RequestRecord} {kind : Nat} {c : Instr} (h : s.takes kind r)
    (target : r.pipeTarget = none)
    (hc : (kind, c) ∈ [(0x01, .setOffers), (0x02, .negotiate), (0x03, .admitPipe), (0x04, .pipeRestart),
      (0x06, .urgentBand), (0x07, Instr.frameNow)]) : Becomes c s (s.answer r .badTarget none []) := by
  simp only [List.mem_cons, Prod.mk.injEq, List.not_mem_nil, or_false] at hc
  rcases hc with ⟨rfl, rfl⟩ | ⟨rfl, rfl⟩ | ⟨rfl, rfl⟩ | ⟨rfl, rfl⟩ | ⟨rfl, rfl⟩ | ⟨rfl, rfl⟩
  · exact becomes_answer rfl h (by unfold State.decideSetOffers; rw [target]; rfl)
  · exact becomes_answer rfl h (by unfold State.decideNegotiate; rw [target]; rfl)
  · exact becomes_answer rfl h (by unfold State.decideAdmit; rw [target]; rfl)
  · exact becomes_badTarget_restart h target
  · exact becomes_answer rfl h (by unfold State.decideUrgentBand; rw [target]; rfl)
  · exact becomes_answer rfl h (by unfold State.decideFrameNow; rw [target]; rfl)

theorem becomes_badTarget_quiet {s : State} {r : RequestRecord} (h : s.takes 0x05 r) (target : r.u8 0x08 ≠ 0x01) :
    Becomes .setQuiet s (s.answer r .badTarget none []) := by
  refine becomes_answer rfl h ?_
  unfold State.decideSetQuiet
  rcases r.pipeTarget_not_p1 target with e | e <;> rw [e] <;> rfl

theorem becomes_badTarget_surface {s : State} {r : RequestRecord} {kind : Nat} {c : Instr} (h : s.takes kind r)
    (target : r.surfaceTarget = none) (hc : (kind, c) ∈ [(0x09, .setSurface), (0x0A, Instr.surfaceEnable)]) :
    Becomes c s (s.answer r .badTarget none []) := by
  simp only [List.mem_cons, Prod.mk.injEq, List.not_mem_nil, or_false] at hc
  rcases hc with ⟨rfl, rfl⟩ | ⟨rfl, rfl⟩
  · exact becomes_answer rfl h (by unfold State.decideSetSurface; rw [target]; rfl)
  · exact becomes_answer rfl h (by unfold State.decideSurfaceEnable; rw [target]; rfl)

theorem becomes_badTarget_clear {s : State} {r : RequestRecord} (h : s.takes 0x0D r)
    (target : r.u8 0x08 ∉ [0x00, 0x01, 0x10, 0x11]) : Becomes .clearFaults s (s.answer r .badTarget none []) := by
  simp only [List.mem_cons, List.not_mem_nil, or_false, not_or] at target
  obtain ⟨p0, p1, s0, s1⟩ := target
  refine becomes_answer rfl h ?_
  unfold State.decideClearFaults
  rw [RequestRecord.pipeTarget_none p0 p1, RequestRecord.surfaceTarget_none s0 s1]
  rfl

/-- Settles O11: the target step by the target byte, the values step by each kind's list of items. -/
theorem firstFailingCheckRefusesTheRequest : Obligations.FirstFailingCheckRefusesTheRequest := by
  unfold Obligations.FirstFailingCheckRefusesTheRequest
  intro s r
  refine ⟨fun kind c h target => ?_, fun i => ⟨fun p h target items => ?_, fun h target items => ?_,
    fun p h target items => ?_, fun h items => ?_, fun k h target items => ?_, fun k h target items => ?_,
    fun h items => ?_, fun h items => ?_⟩⟩
  · rcases target with ⟨hc, h0, h1⟩ | ⟨hc, h1⟩ | ⟨hc, h0, h1⟩ | ⟨hc, h1⟩
    · exact becomes_badTarget_pipe h (RequestRecord.pipeTarget_none h0 h1) hc
    · obtain ⟨rfl, rfl⟩ := Prod.mk.inj hc
      exact becomes_badTarget_quiet h h1
    · exact becomes_badTarget_surface h (RequestRecord.surfaceTarget_none h0 h1) hc
    · obtain ⟨rfl, rfl⟩ := Prod.mk.inj hc
      exact becomes_badTarget_clear h h1
  · refine becomes_answer rfl h ?_
    unfold State.decideSetOffers
    rw [RequestRecord.pipeTarget_of target, RequestRecord.setOffersArgs_error items]
    rfl
  · refine becomes_answer rfl h ?_
    unfold State.decideSetQuiet
    rw [RequestRecord.pipeTarget_of target, RequestRecord.setQuietArgs_error items]
    rfl
  · refine becomes_answer rfl h ?_
    unfold State.decideUrgentBand
    rw [RequestRecord.pipeTarget_of target]
    dsimp only
    rw [PipeState.bandLines_eq, RequestRecord.bandArgs_error items]
    rfl
  · refine becomes_answer rfl h ?_
    unfold State.decideSetReference
    rw [RequestRecord.setReferenceArgs_error items]
    rfl
  · refine becomes_answer rfl h ?_
    unfold State.decideSetSurface
    rw [RequestRecord.surfaceTarget_of target]
    dsimp only
    rw [RequestRecord.setSurfaceArgs_error items]
    rfl
  · refine becomes_answer rfl h ?_
    unfold State.decideSurfaceEnable
    rw [RequestRecord.surfaceTarget_of target]
    dsimp only
    rw [RequestRecord.enableArg_error items]
    rfl
  · refine becomes_answer rfl h ?_
    unfold State.decideSetBank
    rw [RequestRecord.policyArg_error items]
    rfl
  · refine becomes_answer rfl h ?_
    unfold State.decideSetEventPins
    rw [RequestRecord.pinArgs_error items]
    rfl

/-! A request that parks. -/

/-- Replacing one pipe's blocks moves no version word that it does not name. -/
theorem State.withPipe_versions {s : State} {p : Pipe} {x : PipeState} (h : x.version = (s.pipe p).version) :
    SameVersions s (s.withPipe p x) := by
  refine ⟨fun q => ?_, fun _ => rfl, rfl, rfl⟩
  cases p <;> cases q
  · exact h
  · rfl
  · rfl
  · exact h

/-- Settles O13: the three answers in the order the model tries them. -/
theorem negotiateStages : Obligations.NegotiateStages := by
  unfold Obligations.NegotiateStages
  intro s r p h target x
  have target := RequestRecord.pipeTarget_of target
  refine ⟨fun active none => ?_, fun active some => ?_, fun inactive => ?_⟩
  · refine becomes_of_decision rfl h ?_ (State.withPipe_versions (s := s.parks r) rfl)
    unfold State.decideNegotiate
    rw [target]
    dsimp only
    rw [if_neg (by simpa using active), if_neg (by rw [none]; nofun)]
    rw [State.serveCompletions_eq]
    rfl
  · refine becomes_answer rfl h ?_
    unfold State.decideNegotiate
    rw [target]
    dsimp only
    rw [if_neg (by simpa using active), if_pos (Option.isSome_iff_ne_none.2 some)]
    rfl
  · refine becomes_answer rfl h ?_
    unfold State.decideNegotiate
    rw [target]
    dsimp only
    rw [if_pos inactive]
    rfl

end Sys2Proof.Machine
end

section
/-! PROOF. What the shared operations of a frame start do to the lock, the fault set and NOTICE (R85, R101, R107 to
R114). -/

namespace Sys2Proof.Machine

/-! The lock and the fault set of one pipe, with what NOTICE says of both (R101, R177). -/

theorem PipeFaults.put_ne (x : PipeFaults) (f : PipeFault) : x.put f ≠ x ↔ x.get f = false := by
  constructor
  · intro h
    cases hf : x.get f with
    | false => rfl
    | true => exact absurd (x.put_of_get f hf) h
  · intro hf h
    have := x.get_put f f
    rw [h, hf] at this
    simp at this

/-- Whether these faults change a fault set. -/
def PipeFaults.movedBy (x : PipeFaults) (fs : List PipeFault) : Bool := decide (x.plus fs ≠ x)

theorem PipeFaults.movedBy_nil (x : PipeFaults) : x.movedBy [] = false := decide_eq_false (not_not.2 rfl)

theorem PipeFaults.movedBy_one (x : PipeFaults) (f : PipeFault) : x.movedBy [f] = !x.get f := by
  rw [Bool.eq_iff_iff, Bool.not_eq_true', PipeFaults.movedBy, decide_eq_true_eq]
  exact x.put_ne f

/-- The state after a change of one pipe's lock and fault set. -/
def State.relocked (s : State) (p : Pipe) (r : LockCtl × List PipeFault) : State :=
  { s.withPipe p { s.pipe p with lock := r.1, faults := (s.pipe p).faults.plus r.2 } with
    notice := { s.notice with
      pipe := s.notice.pipe || decide (r.1.state ≠ (s.pipe p).lock.state),
      fault := s.notice.fault || (s.pipe p).faults.movedBy r.2 } }

@[simp] theorem State.withPipe_pipe (s : State) (p : Pipe) (x : PipeState) : (s.withPipe p x).pipe p = x := by
  cases p <;> rfl

@[simp] theorem State.relocked_pipe (s : State) (p : Pipe) (r : LockCtl × List PipeFault) :
    (s.relocked p r).pipe p = { s.pipe p with lock := r.1, faults := (s.pipe p).faults.plus r.2 } := by
  cases p <;> rfl

theorem State.setLock_relocked (s : State) (p : Pipe) (g : LockCtl → LockCtl) :
    s.setLock p g = s.relocked p (g (s.pipe p).lock, []) := by
  rw [State.setLock_eq]
  unfold State.relocked
  rw [PipeFaults.movedBy_nil, Bool.or_false]
  rfl

theorem State.modLock_relocked (s : State) (p : Pipe) (g : LockCtl → LockCtl)
    (h : (g (s.pipe p).lock).state = (s.pipe p).lock.state) : s.modLock p g = s.relocked p (g (s.pipe p).lock, []) := by
  rw [← State.setLock_relocked]
  have unchanged : ((s.modLock p g).pipe p).lock.state = (s.pipe p).lock.state := by cases p <;> exact h
  unfold State.setLock
  exact (if_pos unchanged).symm

/-- A fault raised after a change of the lock. -/
theorem State.relocked_raise (s : State) (p : Pipe) (l : LockCtl) (f : PipeFault) :
    (s.relocked p (l, [])).raisePipeFault p f = s.relocked p (l, [f]) := by
  rw [State.raisePipeFault_eq, State.relocked_pipe]
  unfold State.relocked
  rw [PipeFaults.movedBy_nil, PipeFaults.movedBy_one, Bool.or_false]
  cases p <;> rfl

/-- Of two changes in one event the second stands, where only one of them moves the lock state. -/
theorem State.relocked_relocked (s : State) (p : Pipe) (l : LockCtl) (r : LockCtl × List PipeFault)
    (h : l.state = (s.pipe p).lock.state ∨ l.state = r.1.state) :
    (s.relocked p (l, [])).relocked p r = s.relocked p r := by
  have moved : (decide (l.state ≠ (s.pipe p).lock.state) || decide (r.1.state ≠ l.state)) =
      decide (r.1.state ≠ (s.pipe p).lock.state) := by
    rcases h with h | h <;> simp [h]
  have second : (s.relocked p (l, [])).relocked p r = { (s.relocked p (l, [])).withPipe p
      { (s.relocked p (l, [])).pipe p with
        lock := r.1, faults := ((s.relocked p (l, [])).pipe p).faults.plus r.2 } with
      notice := { (s.relocked p (l, [])).notice with
        pipe := (s.relocked p (l, [])).notice.pipe ||
          decide (r.1.state ≠ ((s.relocked p (l, [])).pipe p).lock.state),
        fault := (s.relocked p (l, [])).notice.fault || ((s.relocked p (l, [])).pipe p).faults.movedBy r.2 } } := rfl
  rw [second, State.relocked_pipe]
  unfold State.relocked
  dsimp only
  rw [PipeFaults.movedBy_nil, Bool.or_false, Bool.or_assoc, moved]
  cases p <;> rfl

/-! The measurement, and a contract that replaces another (R110 to R112). -/

theorem LockCtl.counted_measured (l : LockCtl) (now : Word) (c : Contract) :
    { l.counted (l.errorAt now c) with phaseError := l.errorAt now c, measured := true } = (l.measuredAt now c).1 := by
  unfold LockCtl.counted LockCtl.measuredAt
  generalize l.errorAt now c = e
  cases state : l.state <;> dsimp only
  case seeking =>
    by_cases within : e.natAbs ≤ 16
    · rw [if_pos within, if_neg (by omega : ¬ 16 < e.natAbs)]
      by_cases fourth : l.within = 3
      · rw [if_pos (by omega), if_pos fourth]
      · rw [if_neg (by omega), if_neg fourth]
    · rw [if_neg within, if_pos (by omega : 16 < e.natAbs)]
  case locked =>
    by_cases near : e.natAbs ≤ 64
    · rw [if_pos near, if_pos near]
    · rw [if_neg near, if_neg near]
      by_cases second : l.beyond = 1
      · rw [if_pos (by omega), if_pos second]
      · rw [if_neg (by omega), if_neg second]
  all_goals rw [state]

/-- LOCK_LOST is the move from LOCKED to SEEKING. -/
theorem LockCtl.counted_lockLost (l : LockCtl) (now : Word) (c : Contract) :
    (l.measuredAt now c).2 =
      if l.state = .locked ∧ (l.counted (l.errorAt now c)).state = .seeking then [.lockLost] else [] := by
  unfold LockCtl.counted LockCtl.measuredAt
  generalize l.errorAt now c = e
  cases state : l.state <;> dsimp only
  case seeking =>
    by_cases far : 16 < e.natAbs
    · simp [far]
    · by_cases fourth : l.within = 3 <;> simp [far, fourth]
  case locked =>
    by_cases near : e.natAbs ≤ 64
    · simp [near]
    · by_cases second : l.beyond = 1 <;> simp [near, second]
  all_goals exact (if_neg (fun h => nomatch h.1)).symm

theorem State.measureLock_eq (s : State) (p : Pipe) (c : Contract) :
    s.measureLock p c = s.relocked p ((s.pipe p).lock.measuredAt s.time c) := by
  have lock := (s.pipe p).lock.counted_measured s.time c
  have lost := (s.pipe p).lock.counted_lockLost s.time c
  have set : s.measureLock p c =
      if (s.pipe p).lock.state = .locked ∧
        ((s.pipe p).lock.counted ((s.pipe p).lock.errorAt s.time c)).state = .seeking
      then (s.relocked p (((s.pipe p).lock.measuredAt s.time c).1, [])).raisePipeFault p .lockLost
      else s.relocked p (((s.pipe p).lock.measuredAt s.time c).1, []) := by
    rw [← lock, ← s.setLock_relocked p fun x =>
      { x.counted ((s.pipe p).lock.errorAt s.time c) with
        phaseError := (s.pipe p).lock.errorAt s.time c, measured := true }]
    rfl
  rw [set]
  generalize (s.pipe p).lock.measuredAt s.time c = r at lost
  obtain ⟨l, fs⟩ := r
  obtain rfl : fs = _ := lost
  split
  · exact s.relocked_raise p l .lockLost
  · rfl

theorem State.measureIfFollowing_eq (s : State) (p : Pipe) (c : Contract) :
    s.measureIfFollowing p c = s.relocked p ((s.pipe p).lock.onward s.time c) := by
  unfold State.measureIfFollowing LockCtl.onward LockCtl.following
  by_cases h : (s.pipe p).lock.state = .seeking ∨ (s.pipe p).lock.state = .locked
  · rw [if_pos (decide_eq_true h), if_pos h]
    exact s.measureLock_eq p c
  · rw [if_neg (by simpa using h), if_neg h]
    exact s.modLock_relocked p _ rfl

theorem State.loseSource_eq (s : State) (p : Pipe) (g : LockCtl → LockCtl) :
    s.loseSource p g = s.relocked p ((g (s.pipe p).lock).toHoldover, [.refLost]) := by
  unfold State.loseSource
  rw [State.setLock_relocked]
  exact s.relocked_raise p _ _

/-- A measurement in SEEKING with no count yet stays in SEEKING. -/
theorem LockCtl.measuredAt_seeking {l : LockCtl} (now : Word) (c : Contract) (h : l.state = .seeking)
    (count : l.within = 0) : (l.measuredAt now c).1.state = .seeking := by
  unfold LockCtl.measuredAt
  dsimp only
  rw [h]
  dsimp only
  split
  · rfl
  · rw [if_neg (by omega)]

theorem State.lockAtChange_eq (s : State) (p : Pipe) (old c : Contract) :
    s.lockAtChange p old c = s.relocked p ((s.pipe p).lock.replaced s.time old c (s.recentPulse p c)) := by
  have unlocked : (c.cadence = .free ∨ c.cadence = .relaxed) ↔ ¬ c.locked = true := by
    unfold Contract.locked
    cases c.cadence <;> simp
  unfold State.lockAtChange LockCtl.replaced
  by_cases locked : c.locked = true
  · rw [if_pos locked, if_neg (unlocked.not.2 (not_not.2 locked))]
    by_cases same : c.cadence = old.cadence ∧ c.offset = old.offset
    · rw [if_pos same, if_pos same]
      exact s.measureIfFollowing_eq p c
    · rw [if_neg same, if_neg same]
      cases s.recentPulse p c with
      | none => exact s.loseSource_eq p _
      | some t =>
        dsimp only
        rw [State.setLock_relocked, State.measureLock_eq, State.relocked_pipe]
        exact s.relocked_relocked p _ _ (.inr (LockCtl.measuredAt_seeking _ _ rfl rfl).symm)
  · rw [if_neg locked, if_pos (unlocked.2 locked)]
    exact s.setLock_relocked p _

end Sys2Proof.Machine
end

section
/-! PROOF. A frame start, field by field (R83, R85 to R87, R107). -/

namespace Sys2Proof.Machine

/-! The lock at a frame start (R107, R109 to R111). -/

/-- What a pipe's own blocks are does not bear on the last pulse of its source. -/
theorem State.recentPulse_withPipe (s : State) (p : Pipe) (x : PipeState) :
    (s.withPipe p x).recentPulse p = s.recentPulse p := by
  funext c
  unfold State.recentPulse
  cases p <;> rfl

theorem State.recentPulse_relocked (s : State) (p : Pipe) (r : LockCtl × List PipeFault) :
    (s.relocked p r).recentPulse p = s.recentPulse p := s.recentPulse_withPipe p _

theorem State.lockAtFrameStart_eq (s : State) (p : Pipe) (how : StartKind) (replaced : Option Contract) :
    s.lockAtFrameStart p how replaced =
      s.relocked p ((s.pipe p).lock.started how s.time (s.pipe p).pb.contract replaced (s.recentPulse p)) := by
  have first := s.modLock_relocked p (fun l => { l with lastFrameStart := some s.time }) rfl
  have later : ∀ r, (s.relocked p ({ (s.pipe p).lock with lastFrameStart := some s.time }, [])).relocked p r =
    s.relocked p r := fun r => s.relocked_relocked p _ r (.inl rfl)
  unfold State.lockAtFrameStart LockCtl.started
  dsimp only
  rw [first]
  cases how with
  | entry =>
    dsimp only
    rw [State.modLock_relocked _ _ _ (by rfl), State.relocked_pipe]
    exact later _
  | aligned =>
    dsimp only
    rw [State.setLock_relocked, State.relocked_pipe]
    exact later _
  | deadline =>
    dsimp only
    rw [State.loseSource_eq, State.relocked_pipe]
    exact later _
  | next =>
    dsimp only
    rw [State.relocked_pipe]
    cases (s.pipe p).pb.contract with
    | none => rfl
    | some c =>
      cases replaced with
      | none =>
        dsimp only
        rw [State.measureIfFollowing_eq, State.relocked_pipe]
        exact later _
      | some old =>
        dsimp only
        rw [State.lockAtChange_eq, State.relocked_pipe, State.recentPulse_relocked]
        exact later _

/-! The blocks of a frame start (R85 to R88). -/

theorem PlanBuilder.afterStart_eq (x : PipeState) (how : StartKind) :
    x.pb.afterStart how = { x.pb with
      nextPlan := none, contract := x.inForce how,
      selected := if (x.installs how).isSome then none else x.pb.selected,
      phase := if x.settles how then .none else x.pb.phase,
      negotiate := if x.settles how then none else x.pb.negotiate } := by
  have same : x.pb.installAt how = x.installs how := rfl
  unfold PlanBuilder.afterStart PipeState.inForce PipeState.settles
  rw [same]
  cases x.installs how with
  | some c => rfl
  | none =>
    by_cases h : x.pb.phase = .installed ∧ x.pb.contract.isSome = true
    · simp [h]
    · simp [h]

theorem State.announceFrame_eq (s : State) (p : Pipe) :
    s.announceFrame p = s.withPipe p { s.pipe p with
      lc := { (s.pipe p).lc.stopTimer with
        outstanding := some (.frame ((s.pipe p).fr.frameNumber.setWidth 8)) }.plus s.time
        (.frame ((s.pipe p).fr.frameNumber.setWidth 8) (BitVec.ofNat 8 (s.pipe p).fr.planWindows)) true } := by
  unfold State.announceFrame
  dsimp only
  rw [State.sendMessage_eq]
  cases p <;> rfl

theorem Runner.currentSlot_afterStart (r : Runner) (plan : Option Plan) (how : StartKind) (now : Word) :
    (r.afterStart plan how now).currentSlot = plan.bind fun x => x.slots.head? := by
  cases plan with
  | none => rfl
  | some pl => exact List.head?_eq_getElem?.symm

theorem State.pulsePins_eq (s : State) (src : PinSource) :
    s.pulsePins src = { s with pins := pinsPulsed s.pins src s.time } := by
  have each : (fun pin : Pin => if pin.source = src then { pin with pulseEnd := some (s.after pinPulseTU) } else pin) =
      fun pin => if pin.source = src then { source := src, pulseEnd := some (tuAfter s.time 100) } else pin := by
    funext pin
    split
    next h => subst h; rfl
    next => rfl
  unfold State.pulsePins pinsPulsed
  rw [each]

/-- The release of a first slot, if it is a BURST. -/
def Slot.releases : Option Slot → List Word
  | some (.burst _ _ first count) => [releaseMark first count]
  | _ => []

theorem startMarks_eq (number : Word) (plan : Option Plan) :
    startMarks number plan = frameMark number :: Slot.releases (plan.bind fun x => x.slots.head?) := rfl

theorem State.releaseSlot_eq (s : State) (p : Pipe) (slot : Option Slot) :
    s.releaseSlot p slot = s.withPipe p { s.pipe p with
      fr := { (s.pipe p).fr with lpo := (s.pipe p).fr.lpo ++ Slot.releases slot } } := by
  unfold State.releaseSlot
  split
  · rfl
  next h =>
    have nothing : Slot.releases slot = [] := by
      unfold Slot.releases
      split
      · exact absurd rfl (h _ _ _ _)
      · rfl
    rw [nothing, List.append_nil]
    cases p <;> rfl

/-- The marks and links of a frame start, before the lock takes part. -/
def PipeState.announced (x : PipeState) (how : StartKind) (now : Word) : PipeState :=
  { x.begun how now (fun _ => none) with
    fr := { x.fr.afterStart x.pb.nextPlan how now with lpo := x.fr.lpo ++ [frameMark (x.fr.frameNumber + 1)] },
    lock := x.lock, faults := x.faults }

/-- A frame start of one pipe, but for NOTICE. -/
theorem State.startLocal_eq (s : State) (p : Pipe) (how : StartKind) :
    ∃ r : LockCtl × List PipeFault,
      r = (s.pipe p).lock.started how s.time ((s.pipe p).inForce how)
        (if ((s.pipe p).installs how).isSome then (s.pipe p).pb.contract else none) (s.recentPulse p) ∧
      (s.startLocal p how).1 = { s.begunAlone p how with notice := { s.notice with
        pipe := s.notice.pipe || decide (r.1.state ≠ (s.pipe p).lock.state),
        fault := s.notice.fault || (s.pipe p).faults.movedBy r.2 } } := by
  refine ⟨_, rfl, ?_⟩
  have before : (((s.modFr p fun r => r.afterStart (s.pipe p).pb.nextPlan how s.time).modPb p fun b =>
      b.afterStart how).emitMark p (frameMark ((s.pipe p).fr.frameNumber + 1))).announceFrame p =
      s.withPipe p ((s.pipe p).announced how s.time) := by
    rw [State.announceFrame_eq]
    unfold PipeState.announced PipeState.begun
    dsimp only
    rw [← PlanBuilder.afterStart_eq]
    cases p <;> rfl
  have shape : (s.startLocal p how).1 =
      let t := ((s.withPipe p ((s.pipe p).announced how s.time)).lockAtFrameStart p how
        (if ((s.pipe p).installs how).isSome then (s.pipe p).pb.contract else none)).pulsePins (.frameStart p)
      t.releaseSlot p (t.pipe p).fr.currentSlot := by
    rw [← before]
    cases p <;> rfl
  have slot : ((s.pipe p).announced how s.time).fr.currentSlot = (s.pipe p).pb.nextPlan.bind fun x => x.slots.head? :=
    (s.pipe p).fr.currentSlot_afterStart (s.pipe p).pb.nextPlan how s.time
  have marks : (s.pipe p).fr.lpo ++ startMarks ((s.pipe p).fr.frameNumber + 1) (s.pipe p).pb.nextPlan =
      ((s.pipe p).announced how s.time).fr.lpo ++ Slot.releases ((s.pipe p).announced how s.time).fr.currentSlot := by
    rw [slot, startMarks_eq]
    exact (List.append_assoc _ [_] _).symm
  rw [shape, State.lockAtFrameStart_eq, State.releaseSlot_eq, State.withPipe_pipe, State.recentPulse_withPipe,
    State.pulsePins_eq]
  unfold State.begunAlone PipeState.begun
  dsimp only
  rw [marks]
  cases p <;> rfl

end Sys2Proof.Machine
end

section
/-! PROOF. What NOTICE says of an event (R20, R101, R177), and the events that start or end a frame. -/

namespace Sys2Proof.Machine

/-- NOTICE.PIPE has no cause in what became of a pipe, nor has NOTICE.FAULT. -/
structure PipeState.Steady (x y : PipeState) : Prop where
  link   : y.lc.state = x.lc.state
  lock   : y.lock.state = x.lock.state
  faults : y.faults = x.faults

theorem PipeState.Steady.refl (x : PipeState) : x.Steady x := ⟨rfl, rfl, rfl⟩

/-- NOTICE says what became of the pipes from `s` to `t`; no surface's fault set changed. -/
structure Notes (s t : State) : Prop where
  cell     : t.notice.cell = s.notice.cell
  report   : t.notice.report = s.notice.report
  pipe     : t.notice.pipe = true ↔ s.notice.pipe = true ∨
    ∃ p, (t.pipe p).lc.state ≠ (s.pipe p).lc.state ∨ (t.pipe p).lock.state ≠ (s.pipe p).lock.state
  fault    : t.notice.fault = true ↔ s.notice.fault = true ∨ ∃ p, (t.pipe p).faults ≠ (s.pipe p).faults
  surfaces : ∀ k, (t.surf k).faults = (s.surf k).faults

theorem exists_pipe {P : Pipe → Prop} : (∃ p, P p) ↔ P .p0 ∨ P .p1 :=
  ⟨fun ⟨p, h⟩ => by cases p <;> [exact .inl h; exact .inr h], fun h => h.elim (⟨_, ·⟩) (⟨_, ·⟩)⟩

/-- An event of which NOTICE says what became of it is its fields with the flags of `State.noted`. -/
theorem Notes.eq_noted {s t u : State} (h : Notes s t) (fields : t = { u with notice := t.notice })
    (before : u.notice = s.notice) : t = u.noted s := by
  have pipes : ∀ p, t.pipe p = u.pipe p := fun p => by rw [fields]; rfl
  have surfaces : ∀ k, t.surf k = u.surf k := fun k => by rw [fields]; rfl
  have same : t.notice = (u.noted s).notice := by
    refine Notices.mk.injEq .. |>.mpr ⟨?_, ?_, ?_, ?_⟩
    · exact h.cell.trans (congrArg _ before.symm)
    · exact h.report.trans (congrArg _ before.symm)
    · rw [Bool.eq_iff_iff, h.pipe, exists_pipe, pipes, pipes, ← before]
      simp only [Bool.or_eq_true, decide_eq_true_eq, or_assoc]
    · rw [Bool.eq_iff_iff, h.fault, exists_pipe, pipes, pipes, ← before]
      have s0 := surfaces .s0 ▸ h.surfaces .s0
      have s1 := surfaces .s1 ▸ h.surfaces .s1
      simp only [Bool.or_eq_true, decide_eq_true_eq, s0, s1, ne_eq, not_true, or_false]
  rw [fields, same]
  rfl

/-- Nothing to say, and nothing said. -/
theorem Notes.quiet {s t : State} (notice : t.notice = s.notice) (pipes : ∀ p, (s.pipe p).Steady (t.pipe p))
    (surfaces : ∀ k, (t.surf k).faults = (s.surf k).faults) : Notes s t := by
  refine ⟨by rw [notice], by rw [notice], ?_, ?_, surfaces⟩
  · rw [notice]
    refine ⟨.inl, fun h => h.elim id fun ⟨p, h⟩ => ?_⟩
    exact absurd h (by rw [(pipes p).link, (pipes p).lock]; simp)
  · rw [notice]
    exact ⟨.inl, fun h => h.elim id fun ⟨p, h⟩ => absurd (pipes p).faults h⟩

/-- In two parts of an event, where no pipe changes in both. -/
theorem Notes.trans {s t u : State} (first : Notes s t) (second : Notes t u)
    (once : ∀ p, (s.pipe p).Steady (t.pipe p) ∨ (t.pipe p).Steady (u.pipe p)) : Notes s u := by
  refine ⟨second.cell.trans first.cell, second.report.trans first.report, ?_, ?_,
    fun k => (second.surfaces k).trans (first.surfaces k)⟩
  · rw [second.pipe, first.pipe, or_assoc, ← exists_or]
    refine or_congr_right (exists_congr fun p => ?_)
    rcases once p with h | h
    · rw [h.link, h.lock]; simp
    · rw [h.link, h.lock]; simp
  · rw [second.fault, first.fault, or_assoc, ← exists_or]
    refine or_congr_right (exists_congr fun p => ?_)
    rcases once p with h | h
    · rw [h.faults]; simp
    · rw [h.faults]; simp

theorem State.withPipe_other (s : State) {p q : Pipe} (x : PipeState) (h : q ≠ p) :
    (s.withPipe p x).pipe q = s.pipe q := by
  cases p <;> cases q
  · exact absurd rfl h
  · rfl
  · rfl
  · exact absurd rfl h

/-- An event of one pipe. -/
theorem Notes.one {s t : State} (p : Pipe) (others : ∀ q, q ≠ p → t.pipe q = s.pipe q)
    (surfaces : ∀ k, (t.surf k).faults = (s.surf k).faults)
    (cell : t.notice.cell = s.notice.cell) (report : t.notice.report = s.notice.report)
    (pipe : t.notice.pipe = true ↔ s.notice.pipe = true ∨
      ((t.pipe p).lc.state ≠ (s.pipe p).lc.state ∨ (t.pipe p).lock.state ≠ (s.pipe p).lock.state))
    (fault : t.notice.fault = true ↔ s.notice.fault = true ∨ (t.pipe p).faults ≠ (s.pipe p).faults) : Notes s t := by
  refine ⟨cell, report, pipe.trans (or_congr_right ⟨fun h => ⟨p, h⟩, fun ⟨q, h⟩ => ?_⟩),
    fault.trans (or_congr_right ⟨fun h => ⟨p, h⟩, fun ⟨q, h⟩ => ?_⟩), surfaces⟩
  · by_cases hq : q = p
    · exact hq ▸ h
    · rw [others q hq] at h; simp at h
  · by_cases hq : q = p
    · exact hq ▸ h
    · exact absurd (congrArg _ (others q hq)) h

/-! A frame start of one pipe. -/

theorem LinkCtl.plus_state (lc : LinkCtl) (now : Word) (m : TxMessage) (supervised : Bool) :
    (lc.plus now m supervised).state = lc.state := by
  unfold LinkCtl.plus
  split <;> rfl

theorem PipeState.begun_state (x : PipeState) (how : StartKind) (now : Word) (recent : Contract → Option Word) :
    (x.begun how now recent).lc.state = x.lc.state := LinkCtl.plus_state ..

theorem PipeFaults.movedBy_iff {x : PipeFaults} {fs : List PipeFault} : x.movedBy fs = true ↔ x.plus fs ≠ x :=
  decide_eq_true_iff

theorem State.startLocal_other (s : State) {p q : Pipe} (how : StartKind) (h : q ≠ p) :
    (s.startLocal p how).1.pipe q = s.pipe q := by
  obtain ⟨r, -, he⟩ := s.startLocal_eq p how
  rw [he]
  exact s.withPipe_other _ h

theorem State.startLocal_notes (s : State) (p : Pipe) (how : StartKind) : Notes s (s.startLocal p how).1 := by
  have others := fun q => s.startLocal_other (q := q) (p := p) how
  obtain ⟨r, hr, he⟩ := s.startLocal_eq p how
  have pipe : (s.startLocal p how).1.pipe p = (s.pipe p).begun how s.time (s.recentPulse p) := by
    rw [he]
    exact s.withPipe_pipe p _
  have link := (s.pipe p).begun_state how s.time (s.recentPulse p)
  have lock : ((s.pipe p).begun how s.time (s.recentPulse p)).lock.state = r.1.state := by rw [hr]; rfl
  have faults : ((s.pipe p).begun how s.time (s.recentPulse p)).faults = (s.pipe p).faults.plus r.2 := by rw [hr]; rfl
  refine .one p others (fun k => by rw [he]; rfl) (by rw [he]) (by rw [he]) ?_ ?_
  · rw [pipe, link, lock, he]
    simp only [Bool.or_eq_true, decide_eq_true_eq, ne_eq, not_true, false_or]
  · rw [pipe, faults, he, ← PipeFaults.movedBy_iff]
    exact Bool.or_eq_true_iff

theorem State.startLocal_fields (s : State) (p : Pipe) (how : StartKind) :
    (s.startLocal p how).1 = { s.begunAlone p how with notice := (s.startLocal p how).1.notice } := by
  obtain ⟨r, -, he⟩ := s.startLocal_eq p how
  rw [he]

theorem State.startLocal_pipe (s : State) (p : Pipe) (how : StartKind) :
    (s.startLocal p how).1.pipe p = (s.pipe p).begun how s.time (s.recentPulse p) := by
  rw [s.startLocal_fields p how]
  exact s.withPipe_pipe p _

/-! A pulse. -/

/-- The first pulse of a runner in ALIGNING sets its aligned start. -/
theorem PipeState.pulsed_aligning {x : PipeState} {c : Contract} (now : Word) (aligning : x.fr.state = .aligning)
    (first : x.fr.alignedStart = none) (contract : x.pb.contract = some c) :
    x.pulsed now = { x with
      lock := (x.pulsed now).lock,
      fr := { x.fr with alignedStart := some (tuAfter now c.offset), alignDeadline := none } } := by
  unfold PipeState.pulsed
  dsimp only
  rw [if_pos ⟨aligning, first, by rw [contract]; rfl⟩, contract]
  rfl

theorem PipeState.pulsed_waiting {x : PipeState} (now : Word)
    (h : ¬ (x.fr.state = .aligning ∧ x.fr.alignedStart = none ∧ x.pb.contract.isSome = true)) :
    x.pulsed now = { x with lock := (x.pulsed now).lock } := by
  unfold PipeState.pulsed
  dsimp only
  rw [if_neg h]

theorem State.takePulse_eq (s : State) (p : Pipe) :
    s.takePulse p = ({ s.withPipe p ((s.pipe p).pulsed s.time) with notice := { s.notice with
      pipe := s.notice.pipe || decide (((s.pipe p).pulsed s.time).lock.state ≠ (s.pipe p).lock.state) } },
      (s.pipe p).startsOnPulse) := by
  have lock : s.takeLockPulse p = s.relocked p (((s.pipe p).pulsed s.time).lock, []) := by
    unfold State.takeLockPulse PipeState.pulsed
    rw [State.setLock_relocked]
    dsimp only
    by_cases h : (s.pipe p).lock.state = .holdover
    · rw [if_pos h, if_pos h]
    · rw [if_neg h, if_neg h]
  unfold State.takePulse
  rw [lock]
  unfold State.relocked
  rw [PipeFaults.movedBy_nil, Bool.or_false]
  dsimp only
  split
  next c aligning first contract =>
    have starts : (s.pipe p).startsOnPulse = decide (c.offset = 0) := by
      unfold PipeState.startsOnPulse
      simp [aligning, first, contract]
    rw [starts, PipeState.pulsed_aligning s.time aligning first contract]
    cases p <;> rfl
  next no =>
    have starts : (s.pipe p).startsOnPulse = false := by
      refine decide_eq_false fun ⟨aligning, first, offset⟩ => ?_
      obtain ⟨c, contract, -⟩ := Option.map_eq_some_iff.1 offset
      exact no c aligning first contract
    have waits : ¬ ((s.pipe p).fr.state = .aligning ∧ (s.pipe p).fr.alignedStart = none ∧
        (s.pipe p).pb.contract.isSome = true) := fun ⟨aligning, first, inForce⟩ => by
      obtain ⟨c, contract⟩ := Option.isSome_iff_exists.1 inForce
      exact no c aligning first contract
    rw [starts, PipeState.pulsed_waiting s.time waits]
    cases p <;> rfl

theorem State.takePulse_pipe (s : State) (p : Pipe) : (s.takePulse p).1.pipe p = (s.pipe p).pulsed s.time := by
  rw [State.takePulse_eq]
  exact s.withPipe_pipe p _

theorem State.takePulse_other (s : State) {p q : Pipe} (h : q ≠ p) : (s.takePulse p).1.pipe q = s.pipe q := by
  rw [State.takePulse_eq]
  exact s.withPipe_other _ h

theorem State.takePulse_notes (s : State) (p : Pipe) : Notes s (s.takePulse p).1 := by
  have pipe := s.takePulse_pipe p
  have others := fun q => s.takePulse_other (p := p) (q := q)
  have he := congrArg Prod.fst (s.takePulse_eq p)
  refine .one p others (fun k => by rw [he]; rfl) (by rw [he]) (by rw [he]) ?_ ?_
  · have link : ((s.pipe p).pulsed s.time).lc.state = (s.pipe p).lc.state := rfl
    rw [pipe, link, he]
    simp only [Bool.or_eq_true, decide_eq_true_eq, ne_eq, not_true, false_or]
  · have faults : ((s.pipe p).pulsed s.time).faults = (s.pipe p).faults := rfl
    rw [pipe, faults, he]
    simp

/-- What a pulse and a frame start in one event do to the lock state, one of them does. -/
theorem PipeState.pulsed_steady (x : PipeState) (now : Word) :
    x.Steady (x.pulsed now) ∨ (x.pulsed now).lock.state = .seeking := by
  by_cases h : x.lock.state = .holdover
  · refine .inr ?_
    unfold PipeState.pulsed
    dsimp only
    rw [if_pos h]
  · refine .inl ⟨rfl, ?_, rfl⟩
    unfold PipeState.pulsed
    dsimp only
    rw [if_neg h]

theorem PipeState.begun_aligned_steady {x : PipeState} (now : Word) (recent : Contract → Option Word)
    (h : x.lock.state = .seeking) : x.Steady (x.begun .aligned now recent) :=
  ⟨x.begun_state .aligned now recent, h.symm, rfl⟩

/-! The completions of a frame start (R87). -/

theorem PlanBuilder.negotiateAt_eq (x : PipeState) (how : StartKind) :
    x.pb.negotiateAt how = match x.inForce how with
      | some c =>
        if x.settles how then handing x.pb.negotiate c.negotiateStatus c.negotiateResults else []
      | none => [] := by
  have same : x.pb.installAt how = x.installs how := rfl
  unfold PlanBuilder.negotiateAt PipeState.inForce PipeState.settles
  rw [same]
  cases x.pb.negotiate with
  | none => cases x.installs how <;> cases x.pb.contract <;> simp [handing]
  | some r =>
    cases x.installs how with
    | some c => rfl
    | none =>
      cases x.pb.contract with
      | none => rfl
      | some c => by_cases h : x.pb.phase = .installed <;> simp [h, handing, Parked.complete]

theorem State.startLocal_hands (s : State) (p : Pipe) (how : StartKind) :
    (s.startLocal p how).2 = (s.pipe p).startHands how := by
  have number := s.startLocal_pipe p how
  have shape : (s.startLocal p how).2 = [(s.pipe p).pb.negotiateAt how,
      match (s.pipe p).fr.frameNow with
      | some x => [x.complete .done [((s.startLocal p how).1.pipe p).fr.frameNumber]]
      | none => []] := rfl
  rw [shape, number, PlanBuilder.negotiateAt_eq]
  unfold PipeState.startHands
  cases (s.pipe p).fr.frameNow <;> rfl

theorem PipeState.startHands_pulsed (x : PipeState) (how : StartKind) (now : Word) :
    (x.pulsed now).startHands how = x.startHands how := by
  have settles : (x.pulsed now).settles how = x.settles how := rfl
  have inForce : (x.pulsed now).inForce how = x.inForce how := rfl
  have frame : (x.pulsed now).fr.frameNow = x.fr.frameNow ∧ (x.pulsed now).fr.frameNumber = x.fr.frameNumber := by
    unfold PipeState.pulsed
    dsimp only
    split <;> exact ⟨rfl, rfl⟩
  unfold PipeState.startHands
  rw [settles, inForce, frame.1, frame.2]
  rfl

/-! A frame start that may be a peer pulse (R83, R86, R107). -/

/-- The contract a frame start puts in force was in force or selected. -/
theorem PipeState.holdsPeer_of_inForce {x : PipeState} {how : StartKind}
    (h : (x.inForce how).map (·.cadence) = some .lockedPeer) : x.pb.holdsPeer := by
  unfold PipeState.inForce at h
  cases installs : x.installs how with
  | none =>
    rw [installs] at h
    exact .inl h
  | some c =>
    rw [installs] at h
    unfold PipeState.installs at installs
    split at installs
    · exact .inr (installs ▸ h)
    · exact nomatch installs

theorem State.peersApart_not {s : State} (apart : s.peersApart) (p : Pipe) (h : (s.pipe (otherPipe p)).pb.holdsPeer) :
    ¬ (s.pipe p).pb.holdsPeer := by
  cases p
  · exact fun hp => apart ⟨hp, h⟩
  · exact fun hp => apart ⟨h, hp⟩

/-- A pulse of the source of pipe `q`, which may start its frame 1 at once, out of a state `t` of the same event that
left this pipe alone. -/
theorem Notes.pulse {s t : State} {q : Pipe} (notes : Notes s t) (kept : t.pipe q = s.pipe q) :
    Notes s (t.takePulse q).1 ∧ Notes s ((t.takePulse q).1.startLocal q .aligned).1 := by
  have pulse : Notes s (t.takePulse q).1 := notes.trans (t.takePulse_notes q) fun r => by
    by_cases hr : r = q
    · subst hr
      exact .inl (kept ▸ .refl _)
    · exact .inr (t.takePulse_other hr ▸ .refl _)
  refine ⟨pulse, pulse.trans (State.startLocal_notes _ q .aligned) fun r => ?_⟩
  by_cases hr : r = q
  · subst hr
    rw [t.takePulse_pipe, kept]
    refine ((s.pipe r).pulsed_steady t.time).imp id fun seeking => ?_
    rw [State.startLocal_pipe, State.takePulse_pipe, kept]
    exact PipeState.begun_aligned_steady _ _ seeking
  · exact .inr (State.startLocal_other _ .aligned hr ▸ .refl _)

theorem State.startFrame_eq (s : State) (p : Pipe) (how : StartKind) (apart : s.peersApart) :
    (s.startFrame p how).1 = (s.begun p how).noted s ∧ (s.startFrame p how).2 = s.begunHands p how := by
  have apartPipes := otherPipe_ne p
  have fields := s.startLocal_fields p how
  have notes := s.startLocal_notes p how
  have hands := s.startLocal_hands p how
  have peer := s.startLocal_other how apartPipes
  have own : ((s.startLocal p how).1.pipe p).pb.contract = (s.pipe p).inForce how := by rw [State.startLocal_pipe]; rfl
  have time : (s.startLocal p how).1.time = s.time := by rw [fields]; rfl
  unfold State.startFrame State.begun State.begunHands
  generalize s.startLocal p how = x at *
  obtain ⟨t, gs⟩ := x
  dsimp only at *
  rw [peer, hands]
  by_cases follows : (s.pipe (otherPipe p)).follows .lockedPeer = true
  · rw [if_pos follows, if_pos follows]
    have both := notes.pulse peer
    have pulse := t.takePulse_eq (otherPipe p)
    have pulsed := t.takePulse_pipe (otherPipe p)
    have other := t.takePulse_other apartPipes.symm
    rw [peer, time] at pulse pulsed
    generalize t.takePulse (otherPipe p) = y at *
    obtain ⟨v, starts⟩ := y
    obtain ⟨vfields, rfl⟩ := Prod.mk.inj pulse
    have vfields : v = { (s.begunAlone p how).withPipe (otherPipe p) ((s.pipe (otherPipe p)).pulsed s.time) with
        notice := v.notice } := by rw [vfields, fields]; rfl
    dsimp only at *
    by_cases starts : (s.pipe (otherPipe p)).startsOnPulse = true
    · have alone : ¬ ((v.startLocal (otherPipe p) .aligned).1.pipe p).follows .lockedPeer = true := fun h => by
        rw [State.startLocal_other _ _ apartPipes.symm, other] at h
        have holds := of_decide_eq_true h
        rw [own] at holds
        exact State.peersApart_not apart p (.inl (of_decide_eq_true follows)) (PipeState.holdsPeer_of_inForce holds)
      have begun := v.startLocal_fields (otherPipe p) .aligned
      rw [if_pos starts, if_pos starts, if_neg alone, State.startLocal_hands, pulsed, PipeState.startHands_pulsed]
      refine ⟨both.2.eq_noted ?_ ?_, by rw [if_pos ⟨follows, starts⟩]⟩
      · rw [begun, vfields]
        rfl
      · rfl
    · rw [if_neg starts, if_neg starts, if_neg fun h => starts h.2]
      exact ⟨both.1.eq_noted vfields rfl, (List.append_nil _).symm⟩
  · rw [if_neg follows, if_neg follows, if_neg fun h => follows h.1]
    exact ⟨notes.eq_noted fields rfl, (List.append_nil _).symm⟩

end Sys2Proof.Machine
end

section
/-! PROOF. Requests that park on a pipe: ADMIT, FRAME_NOW and URGENT_BAND (R25, R26, R119 to R121, R125). -/

namespace Sys2Proof.Machine

/-! Handing over (R9, R12). -/

theorem Rqi.served_of_busy {x : Rqi} {now : Word} (h : x.engine ≠ .idle ∨ x.completions = []) : x.served now = x := by
  unfold Rqi.served
  split
  next idle some => rcases h with h | h <;> [exact absurd idle h; exact nomatch some.symm.trans h]
  next => rfl

theorem Rqi.served_served (x : Rqi) (now : Word) : (x.served now).served now = x.served now := by
  by_cases h : x.engine ≠ .idle ∨ x.completions = []
  · rw [Rqi.served_of_busy h, Rqi.served_of_busy h]
  · obtain ⟨idle, some⟩ := not_or.1 h
    obtain ⟨c, rest, waits⟩ := List.exists_cons_of_ne_nil some
    refine Rqi.served_of_busy (.inl ?_)
    unfold Rqi.served
    rw [not_not.1 idle, waits]
    exact fun h => nomatch h

/-- Completions that join the list behind its first leave the engine to that one. -/
theorem Rqi.served_join (x : Rqi) (now : Word) (cs : List Completion) :
    Rqi.served { x with completions := x.completions ++ cs } now =
      Rqi.served { x.served now with completions := (x.served now).completions ++ cs } now := by
  by_cases h : x.engine ≠ .idle ∨ x.completions = []
  · rw [Rqi.served_of_busy h]
  · obtain ⟨idle, some⟩ := not_or.1 h
    obtain ⟨c, rest, waits⟩ := List.exists_cons_of_ne_nil some
    unfold Rqi.served
    rw [not_not.1 idle, waits]
    rfl

/-- An engine that goes on to what waits first, and then hands over, ends as one that hands over first. -/
theorem HandedOver.served {x q : Rqi} {now : Word} {owners : List (List Completion)} (h : HandedOver x now owners q) :
    HandedOver (x.served now) now owners (q.served now) := by
  unfold HandedOver at h ⊢
  by_cases none : owners.flatten = []
  · rw [if_pos none] at h ⊢
    rw [h]
  · rw [if_neg none] at h ⊢
    obtain ⟨order, perm, rfl⟩ := h
    exact ⟨order, perm, by rw [Rqi.served_served, Rqi.served_join]⟩

/-! What an event leaves of the version words. -/

theorem SameVersions.trans {s t u : State} (first : SameVersions s t) (second : SameVersions t u) : SameVersions s u :=
  ⟨fun p => (second.1 p).trans (first.1 p), fun k => (second.2.1 k).trans (first.2.1 k),
    second.2.2.1.trans first.2.2.1, second.2.2.2.trans first.2.2.2⟩

theorem State.begunAlone_versions (s : State) (p : Pipe) (how : StartKind) : SameVersions s (s.begunAlone p how) :=
  s.withPipe_versions (p := p) (x := (s.pipe p).begun how s.time (s.recentPulse p)) rfl

theorem State.begun_versions (s : State) (p : Pipe) (how : StartKind) : SameVersions s (s.begun p how) := by
  have alone := s.begunAlone_versions p how
  have peer : ((s.begunAlone p how).pipe (otherPipe p)) = s.pipe (otherPipe p) := s.withPipe_other _ (otherPipe_ne p)
  have pulse : SameVersions s
      ((s.begunAlone p how).withPipe (otherPipe p) ((s.pipe (otherPipe p)).pulsed s.time)) :=
    alone.trans (State.withPipe_versions (peer ▸ rfl))
  unfold State.begun
  dsimp only
  split
  · split
    · exact pulse.trans (State.begunAlone_versions _ _ _)
    · exact pulse
  · exact alone

/-- A frame start reads nothing of the Request Intake, and changes nothing of it, of Work Memory or of TIME. -/
theorem State.begun_rqi (s : State) (p : Pipe) (how : StartKind) (q : Rqi) :
    { s with rqi := q }.begun p how = { s.begun p how with rqi := q } := by
  unfold State.begun
  dsimp only
  split
  · split
    · rw [if_pos (by assumption), if_pos (by assumption)]; rfl
    · rw [if_pos (by assumption), if_neg (by assumption)]; rfl
  · rw [if_neg (by assumption)]; rfl

theorem State.begun_kept (s : State) (p : Pipe) (how : StartKind) :
    (s.begun p how).rqi = s.rqi ∧ (s.begun p how).time = s.time ∧ (s.begun p how).mem = s.mem := by
  unfold State.begun
  dsimp only
  split
  · split <;> exact ⟨rfl, rfl, rfl⟩
  · exact ⟨rfl, rfl, rfl⟩

/-- NOTICE speaks of an event alike from two states with the same links, locks and fault sets. -/
theorem State.noted_congr {s t : State} (u : State) (pipes : ∀ p, (s.pipe p).Steady (t.pipe p))
    (surfaces : ∀ k, (t.surf k).faults = (s.surf k).faults) : u.noted t = u.noted s := by
  unfold State.noted
  dsimp only
  rw [(pipes .p0).link, (pipes .p0).lock, (pipes .p0).faults, (pipes .p1).link, (pipes .p1).lock, (pipes .p1).faults,
    surfaces .s0, surfaces .s1]

/-! Entry to SELECTING (R25, R27, R52). -/

theorem State.enterSelecting_eq (s : State) (p : Pipe) (c : Contract) :
    s.enterSelecting p c = { s.withPipe p ((s.pipe p).selecting s.time c) with notice := { s.notice with
      pipe := s.notice.pipe || decide ((s.pipe p).lc.state ≠ .selecting) ||
        decide (LockState.notLocking ≠ (s.pipe p).lock.state) } } := by
  unfold State.enterSelecting
  dsimp only
  rw [State.sendMessage_eq, State.setLock_eq, State.setLink_eq]
  cases p <;> rfl

theorem PipeState.selecting_link (x : PipeState) (now : Word) (c : Contract) :
    (x.selecting now c).lc.state = .selecting := LinkCtl.plus_state ..

theorem State.enterSelecting_pipe (s : State) (p : Pipe) (c : Contract) :
    (s.enterSelecting p c).pipe p = (s.pipe p).selecting s.time c := by
  rw [State.enterSelecting_eq]
  exact s.withPipe_pipe p _

theorem State.enterSelecting_notes (s : State) (p : Pipe) (c : Contract) : Notes s (s.enterSelecting p c) := by
  have pipe := s.enterSelecting_pipe p c
  have he := s.enterSelecting_eq p c
  have link := (s.pipe p).selecting_link s.time c
  have lock : ((s.pipe p).selecting s.time c).lock.state = .notLocking := rfl
  have faults : ((s.pipe p).selecting s.time c).faults = (s.pipe p).faults := rfl
  refine .one p (fun q h => by rw [he]; exact s.withPipe_other _ h) (fun k => by rw [he]; rfl) (by rw [he]) (by rw [he])
    ?_ ?_
  · rw [pipe, link, lock, he]
    simp only [Bool.or_eq_true, decide_eq_true_eq, or_assoc, ne_comm]
  · rw [pipe, faults, he]
    simp

/-- An event that enters SELECTING, out of a state `t` in which only blocks of this pipe that NOTICE does not speak of
have changed. -/
theorem State.enterSelecting_noted {s t : State} {p : Pipe} {x : PipeState} (c : Contract)
    (ht : t = s.withPipe p x) (steady : (s.pipe p).Steady x) :
    t.enterSelecting p c = (s.withPipe p (x.selecting s.time c)).noted s := by
  subst ht
  have pipe := s.withPipe_pipe p x
  have quiet : Notes s (s.withPipe p x) := by
    refine .quiet rfl (fun q => ?_) fun _ => rfl
    by_cases hq : q = p
    · subst hq
      rwa [pipe]
    · rw [s.withPipe_other x hq]
      exact .refl _
  have notes : Notes s ((s.withPipe p x).enterSelecting p c) := by
    refine quiet.trans (State.enterSelecting_notes _ p c) fun q => ?_
    by_cases hq : q = p
    · subst hq
      rw [pipe]
      exact .inl steady
    · refine .inr ?_
      rw [State.enterSelecting_eq]
      exact (State.withPipe_other (s.withPipe p x) _ hq).symm ▸ .refl _
  refine notes.eq_noted ?_ rfl
  have he := State.enterSelecting_eq (s.withPipe p x) p c
  rw [pipe] at he
  rw [he]
  cases p <;> rfl

theorem State.beginAdmission_eq (s : State) (p : Pipe) : s.beginAdmission p = (s.admitting p).noted s :=
  State.enterSelecting_noted (x := { s.pipe p with pb := { (s.pipe p).pb with
    contract := some (s.selection p), counter := (s.selection p).number } }) _ rfl ⟨rfl, rfl, rfl⟩

theorem State.endIntoSelecting_eq (s : State) (p : Pipe) (c : Contract) :
    s.endIntoSelecting p c = (s.withPipe p ((s.pipe p).changingMode s.time c)).noted s := by
  refine State.enterSelecting_noted (x := { s.pipe p with
    pb := { (s.pipe p).pb with contract := some c, selected := none, phase := .installed },
    fr := { (s.pipe p).fr with
      state := .stopped, plan := none, slot := 0, pullIn := false, trimEnd := none, stretchLimit := none,
      bands := (s.pipe p).fr.bands.map Band.carryOver } }) c ?_ ⟨rfl, rfl, rfl⟩
  cases p <;> rfl

/-! The end of a frame (R94, R95). -/

/-- A request's decision that parks it and ends the frame, its engine then going on to what waits. -/
theorem endsFrame_of_decision {c : Instr} {kind : Nat} {f : State → RequestRecord → State} {s t : State}
    {r : RequestRecord} {p : Pipe} (he : exec c s = decision kind f s) (h : s.takes kind r)
    (hf : f s r = ((t.endFrame p).finish).serveCompletions) (apart : t.peersApart)
    (pipes : ∀ q, (s.pipe q).Steady (t.pipe q)) (surfaces : t.surfaces = s.surfaces) (versions : SameVersions s t) :
    EndsFrame c s t.serveCompletions p := by
  have noted : ∀ u : State, u.noted t = u.noted s := fun u =>
    State.noted_congr u pipes fun k => by cases k <;> simp only [State.surf, surfaces]
  have served := t.serveCompletions_eq
  have changing : ∀ x : Contract, f s r = (t.endIntoSelecting p x).serveCompletions →
      Becomes c s ((t.serveCompletions.withPipe p ((t.pipe p).changingMode t.time x)).noted s) := fun x hx => by
    refine becomes_of_decision he h ?_ ?_
    · rw [hx, State.endIntoSelecting_eq, noted, State.serveCompletions_eq, served]
      rfl
    · rw [served]
      exact versions.trans (t.withPipe_versions (p := p) (x := (t.pipe p).changingMode t.time x) rfl)
  have begins : f s r = ((t.startFrame p .next).finish).serveCompletions →
      BeginsFrame c s t.serveCompletions p .next [] := fun hx => by
    obtain ⟨begun, hands⟩ := t.startFrame_eq p .next apart
    obtain ⟨q, n, after, handed⟩ := (t.startFrame p .next).1.handOverGroups_spec (t.startFrame p .next).2
    obtain ⟨rqi, time, mem⟩ := t.begun_kept p .next
    have left : f s r = { (t.begun p .next).noted s with rqi := q.served t.time, free := n } := by
      rw [hx, Handing.finish, after, begun, noted, State.serveCompletions_eq]
      simp only [State.noted, time]
    have handed : HandedOver t.rqi t.time (t.begunHands p .next) q := by
      rw [begun, hands] at handed
      simpa only [State.noted, rqi, time] using handed
    have apartRqi := t.begun_rqi p .next (t.rqi.served t.time)
    rw [served]
    refine ⟨q.served t.time, handed.served, becomes_of_publish (he.trans (decision_eq h)) ?_ (fun a => ?_) ?_⟩
    · rw [left, apartRqi]
      rfl
    · rw [left, apartRqi]
      rfl
    · rw [left]
      exact versions.trans (t.begun_versions p .next)
  have pipe : t.serveCompletions.pipe p = t.pipe p := by rw [served]; rfl
  have time : t.serveCompletions.time = t.time := by rw [served]
  unfold EndsFrame
  unfold State.endFrame at hf
  rw [pipe, time]
  cases selected : (t.pipe p).pb.selected with
  | none =>
    rw [selected] at hf
    exact begins hf
  | some x =>
    rw [selected] at hf
    cases waiting : (t.pipe p).pb.modeChangeWaiting with
    | true =>
      rw [waiting] at hf
      exact changing x hf
    | false =>
      rw [waiting] at hf
      exact begins hf

end Sys2Proof.Machine
end

section
/-! PROOF. ADMIT, FRAME_NOW and URGENT_BAND as their statements put them. -/

namespace Sys2Proof.Machine

/-! A selection reads nothing of the Request Intake (R41 to R44). -/

theorem State.firstMode_rqi (s : State) (q : Rqi) (p : Pipe) (o : Offer) (mi : Nat) (modes : List ModeRecord) :
    { s with rqi := q }.firstMode p o mi modes = s.firstMode p o mi modes := by
  induction modes generalizing mi with
  | nil => rfl
  | cons m ms ih => exact congrArg (ite (s.fits p o m = true) (some (mi, m))) (ih (mi + 1))

theorem State.firstPair_rqi (s : State) (q : Rqi) (p : Pipe) (modes : List ModeRecord) (oi : Nat) (offers : List Offer) :
    { s with rqi := q }.firstPair p modes oi offers = s.firstPair p modes oi offers := by
  induction offers generalizing oi with
  | nil => rfl
  | cons o os ih =>
    unfold State.firstPair
    rw [State.firstMode_rqi, ih]

theorem State.selection_rqi (s : State) (q : Rqi) (p : Pipe) : { s with rqi := q }.selection p = s.selection p := by
  unfold State.selection
  dsimp only
  rw [State.firstPair_rqi]
  rfl

theorem State.admitting_rqi (s : State) (q : Rqi) (p : Pipe) :
    { s with rqi := q }.admitting p = { s.admitting p with rqi := q } := by
  unfold State.admitting
  dsimp only
  rw [State.selection_rqi]
  rfl

/-! A request parked on a pipe. -/

/-- A request parks and changes blocks of a pipe; the engine has not yet gone on to what waits. -/
def State.parkedOn (s : State) (r : RequestRecord) (p : Pipe) (f : PipeState → PipeState) : State :=
  (s.park r).modPipe p f

theorem State.parkedOn_served (s : State) (r : RequestRecord) (p : Pipe) (f : PipeState → PipeState) :
    (s.parkedOn r p f).serveCompletions = (s.parks r).withPipe p (f (s.pipe p)) := by
  rw [State.serveCompletions_eq]
  rfl

theorem State.parkedOn_pipe (s : State) (r : RequestRecord) (p : Pipe) (f : PipeState → PipeState) :
    (s.parkedOn r p f).pipe p = f (s.pipe p) := State.withPipe_pipe (s.park r) p _

theorem State.parkedOn_steady {s : State} {p : Pipe} {f : PipeState → PipeState} (r : RequestRecord)
    (h : (s.pipe p).Steady (f (s.pipe p))) (q : Pipe) : (s.pipe q).Steady ((s.parkedOn r p f).pipe q) := by
  by_cases hq : q = p
  · subst hq
    rwa [State.parkedOn_pipe]
  · have other : (s.parkedOn r p f).pipe q = s.pipe q := State.withPipe_other (s.park r) _ hq
    rw [other]
    exact .refl _

theorem State.parkedOn_versions {s : State} {p : Pipe} {f : PipeState → PipeState} (r : RequestRecord)
    (h : (f (s.pipe p)).version = (s.pipe p).version) : SameVersions s (s.parkedOn r p f) :=
  State.withPipe_versions (s := s.park r) h

/-! ADMIT (R25, R26). -/

/-- The ADMIT parked on a link. -/
def PipeState.parkingAdmit (r : RequestRecord) (x : PipeState) : PipeState :=
  { x with lc := { x.lc with parkedAdmit := some r.parked } }

/-- Settles O14: by the link state, and in HELD by what an admission does. -/
theorem admitIsDecidedByTheLink : Obligations.AdmitIsDecidedByTheLink := by
  unfold Obligations.AdmitIsDecidedByTheLink
  intro s r p h target x u
  have target := RequestRecord.pipeTarget_of target
  have versions : SameVersions s u := State.withPipe_versions (s := s.parks r) rfl
  have parkAdmit : x.lc.state ≠ .off → x.lc.state ≠ .active → s.decideAdmit r = s.parkAdmit r p := fun off active => by
    unfold State.decideAdmit
    rw [target]
    dsimp only
    split
    next e => exact absurd e off
    next e => exact absurd e active
    all_goals rfl
  refine ⟨fun off => ?_, fun c active contract => ?_, fun off active => ⟨fun busy => ?_, fun free held => ?_,
    fun free other => ?_⟩⟩
  · refine becomes_answer rfl h ?_
    unfold State.decideAdmit
    rw [target]
    dsimp only
    rw [show (s.pipe p).lc.state = .off from off]
    rfl
  · refine becomes_answer rfl h ?_
    unfold State.decideAdmit
    rw [target]
    dsimp only
    rw [show (s.pipe p).lc.state = .active from active]
    dsimp only
    rw [show (s.pipe p).pb.contract = some c from contract]
    rfl
  · refine becomes_answer rfl h ((parkAdmit off active).trans ?_)
    exact if_pos (Option.isSome_iff_ne_none.2 busy)
  · have park : s.parkAdmit r p = ((s.parkedOn r p (.parkingAdmit r)).beginAdmission p).serveCompletions := by
      unfold State.parkAdmit
      rw [if_neg (by rw [free]; nofun)]
      dsimp only
      rw [if_pos held]
      rfl
    have steady : ∀ q, (s.pipe q).Steady ((s.parkedOn r p (.parkingAdmit r)).pipe q) :=
      State.parkedOn_steady r ⟨rfl, rfl, rfl⟩
    refine becomes_of_decision rfl h ((parkAdmit off active).trans (park.trans ?_))
      (versions.trans (u.withPipe_versions rfl))
    rw [State.beginAdmission_eq, State.serveCompletions_eq, State.noted_congr _ steady fun _ => rfl]
    exact (congrArg (·.noted s) (State.admitting_rqi _ ((s.park r).rqi.served s.time) p)).symm
  · have park : s.parkAdmit r p = (s.parkedOn r p (.parkingAdmit r)).serveCompletions := by
      unfold State.parkAdmit
      rw [if_neg (by rw [free]; nofun)]
      dsimp only
      rw [if_neg other]
      rfl
    exact becomes_of_decision rfl h ((parkAdmit off active).trans (park.trans (s.parkedOn_served r p _))) versions

/-! A pull-in (R119, R120). -/

theorem PipeState.relaxed_iff (x : PipeState) : x.relaxed = true ↔ x.pb.contract.map (·.cadence) = some .relaxed :=
  decide_eq_true_iff

theorem State.callPullIn_running {s : State} {p : Pipe} (relaxed : (s.pipe p).relaxed = true)
    (running : (s.pipe p).fr.state = .running) :
    s.callPullIn p false = (s.modFr p fun r => { r with pullIn := true }).serveCompletions := by
  unfold State.callPullIn
  rw [relaxed, running]
  rfl

theorem State.callPullIn_stretch {s : State} {p : Pipe} (served : Bool) (relaxed : (s.pipe p).relaxed = true)
    (stretch : (s.pipe p).fr.state = .stretch) :
    s.callPullIn p served = ((s.endFrame p).finish).serveCompletions := by
  unfold State.callPullIn
  rw [relaxed, stretch]

theorem State.callPullIn_none {s : State} {p : Pipe} {served : Bool}
    (h : ¬ ((s.pipe p).relaxed = true ∧
      ((s.pipe p).fr.state = .running ∧ served = false ∨ (s.pipe p).fr.state = .stretch))) :
    s.callPullIn p served = s.serveCompletions := by
  unfold State.callPullIn
  split
  next relaxed running =>
    cases served with
    | false => exact absurd ⟨relaxed, .inl ⟨running, rfl⟩⟩ h
    | true => rfl
  next relaxed stretch => exact absurd ⟨relaxed, .inr stretch⟩ h
  next => rfl

/-! FRAME_NOW (R119 to R121). -/

/-- The FRAME_NOW parked on a runner. -/
def PipeState.parkingFrameNow (r : RequestRecord) (x : PipeState) : PipeState :=
  { x with fr := { x.fr with frameNow := some r.parked } }

/-- Settles O18: what parks calls for a pull-in by the runner's state. -/
theorem frameNowPullsIn : Obligations.FrameNowPullsIn := by
  unfold Obligations.FrameNowPullsIn
  intro s r p h target x ready parked
  have target := RequestRecord.pipeTarget_of target
  have guard : ((s.pipe p).lc.state = .active ∧ (s.pipe p).relaxed = true) ↔ ready := by
    rw [PipeState.relaxed_iff]
  let t := s.parkedOn r p (.parkingFrameNow r)
  have pipe : t.pipe p = PipeState.parkingFrameNow r x := s.parkedOn_pipe r p _
  have served : t.serveCompletions = parked x.fr.pullIn := s.parkedOn_served r p _
  have versions : SameVersions s t := State.parkedOn_versions r rfl
  have versionsParked : ∀ b, SameVersions s (parked b) := fun b => State.withPipe_versions (s := s.parks r) rfl
  have parks : ready → x.fr.frameNow = none → s.decideFrameNow r = t.callPullIn p false := fun hr free => by
    unfold State.decideFrameNow
    rw [target]
    dsimp only
    rw [if_neg (not_not.2 (guard.2 hr)), if_neg (by rw [show (s.pipe p).fr.frameNow = none from free]; nofun)]
    rfl
  refine ⟨fun hr => ?_, fun hr busy => ?_, fun hr free => ⟨fun running => ?_, fun stretch apart => ?_,
    fun running stretch => ?_⟩⟩
  · refine becomes_answer rfl h ?_
    unfold State.decideFrameNow
    rw [target]
    dsimp only
    rw [if_pos (guard.not.2 hr)]
    rfl
  · refine becomes_answer rfl h ?_
    unfold State.decideFrameNow
    rw [target]
    dsimp only
    rw [if_neg (not_not.2 (guard.2 hr)), if_pos (Option.isSome_iff_ne_none.2 busy)]
    rfl
  · refine becomes_of_decision rfl h ((parks hr free).trans ?_) (versionsParked true)
    rw [State.callPullIn_running (by rw [pipe]; exact (guard.2 hr).2) (by rw [pipe]; exact running),
      State.serveCompletions_eq]
    cases p <;> rfl
  · rw [← served]
    refine endsFrame_of_decision rfl h ((parks hr free).trans ?_) ?_ (State.parkedOn_steady r ⟨rfl, rfl, rfl⟩) rfl
      versions
    · exact State.callPullIn_stretch _ (by rw [pipe]; exact (guard.2 hr).2) (by rw [pipe]; exact stretch)
    · cases p <;> exact apart
  · refine becomes_of_decision rfl h ((parks hr free).trans ?_) (versionsParked _)
    rw [State.callPullIn_none, served]
    rw [pipe]
    rintro ⟨-, ⟨h, -⟩ | h⟩
    · exact running h
    · exact stretch h

/-! The serving frame of a band (R125). -/

theorem burstPosition_cons {x : Slot} {rest : List Slot} {k line : Nat} :
    (x.holds line → burstPosition (x :: rest) k line = some k) ∧
    (¬ x.holds line → burstPosition (x :: rest) k line = burstPosition rest (k + 1) line) := by
  cases x with
  | burst start length first count => exact ⟨fun h => if_pos h, fun h => if_neg h⟩
  | window => exact ⟨False.elim, fun _ => rfl⟩
  | blank => exact ⟨False.elim, fun _ => rfl⟩
  | trim => exact ⟨False.elim, fun _ => rfl⟩

/-- The position found is that of the first BURST that holds the line. -/
theorem burstPosition_iff {slots : List Slot} {k line m : Nat} :
    burstPosition slots k line = some m ↔ ∃ i x, m = k + i ∧ slots[i]? = some x ∧ x.holds line ∧
      ∀ j < i, ∀ y, slots[j]? = some y → ¬ y.holds line := by
  induction slots generalizing k with
  | nil => simp [burstPosition]
  | cons x rest ih =>
    by_cases holds : x.holds line
    · rw [burstPosition_cons.1 holds]
      constructor
      · rintro ⟨⟩
        exact ⟨0, x, rfl, rfl, holds, fun j hj => absurd hj (by omega)⟩
      · rintro ⟨i, y, rfl, -, -, before⟩
        cases i with
        | zero => rfl
        | succ i => exact absurd holds (before 0 (by omega) x rfl)
    · rw [burstPosition_cons.2 holds, ih]
      constructor
      · rintro ⟨i, y, rfl, found, hy, before⟩
        refine ⟨i + 1, y, by omega, found, hy, fun j hj z hz => ?_⟩
        cases j with
        | zero => obtain rfl := Option.some.inj hz; exact holds
        | succ j => exact before j (by omega) z hz
      · rintro ⟨i, y, rfl, found, hy, before⟩
        cases i with
        | zero => obtain rfl := Option.some.inj found; exact absurd hy holds
        | succ i => exact ⟨i, y, by omega, found, hy, fun j hj z hz => before (j + 1) (by omega) z hz⟩

theorem Runner.servingFor_eq_some {r : Runner} {line : Nat} (h : r.stillServes line) :
    r.servingFor line = some r.frameNumber := by
  obtain ⟨running, pl, k, x, plan, found, holds, before, waits⟩ := h
  unfold Runner.servingFor
  rw [running, plan]
  dsimp only
  rw [burstPosition_iff.2 ⟨k, x, rfl, found, holds, before⟩]
  exact if_pos (by omega)

theorem Runner.servingFor_eq_none {r : Runner} {line : Nat} (h : ¬ r.stillServes line) : r.servingFor line = none := by
  unfold Runner.servingFor
  split
  next pl running plan =>
    split
    next m position =>
      obtain ⟨k, x, rfl, found, holds, before⟩ := burstPosition_iff.1 position
      exact if_neg fun waits => h ⟨running, pl, k, x, plan, found, holds, before, by omega⟩
    next => rfl
  next => rfl

/-! URGENT_BAND (R119, R120, R124, R125). -/

theorem RequestRecord.bandArgs_ok {r : RequestRecord} {v : Nat} (h : allPass (r.bandItems v)) :
    r.bandArgs v = .ok (r.u16 0x20, r.u16 0x22, r.u32 0x24) := by
  have order := h _ (.head _)
  have lines := h _ (.tail _ (.head _))
  have deadline := h _ (.tail _ (.tail _ (.head _)))
  rw [decide_eq_true_eq] at order lines
  rw [within_eq_true] at deadline
  unfold RequestRecord.bandArgs
  rw [if_neg (by omega), if_neg (by omega), if_neg (by omega)]

/-- The band parked on a runner. -/
def PipeState.parkingBand (band : Band) (x : PipeState) : PipeState :=
  { x with fr := { x.fr with bands := x.fr.bands ++ [band] } }

/-- Settles O17: the serving frame is that of the statement, and what parks calls for a pull-in by the runner's state. -/
theorem urgentBandParks : Obligations.UrgentBandParks := by
  unfold Obligations.UrgentBandParks
  intro s r p serving h target items x relaxed band parked
  have target := RequestRecord.pipeTarget_of target
  let t := s.parkedOn r p (.parkingBand band)
  have pipe : t.pipe p = PipeState.parkingBand band x := s.parkedOn_pipe r p _
  have served : t.serveCompletions = parked x.fr.pullIn := s.parkedOn_served r p _
  have versions : SameVersions s t := State.parkedOn_versions r rfl
  have versionsParked : ∀ b, SameVersions s (parked b) := fun b => State.withPipe_versions (s := s.parks r) rfl
  have decided : s.decideUrgentBand r =
      if (s.pipe p).lc.state ≠ .active then s.finishTake r .wrongState []
      else if 4 ≤ (s.pipe p).fr.bands.length then s.finishTake r .busy []
      else (s.parkedOn r p (.parkingBand { band with serving := x.fr.servingFor (r.u16 0x20) })).callPullIn p
        (x.fr.servingFor (r.u16 0x20)).isSome := by
    unfold State.decideUrgentBand
    rw [target]
    dsimp only
    rw [PipeState.bandLines_eq, RequestRecord.bandArgs_ok items]
    rfl
  refine ⟨fun inactive => ?_, fun active full => ?_, fun active room serves not => ?_⟩
  · exact becomes_answer rfl h (decided.trans (if_pos inactive))
  · exact becomes_answer rfl h (decided.trans ((if_neg (not_not.2 active)).trans (if_pos full)))
  · have frame : x.fr.servingFor (r.u16 0x20) = serving := by
      by_cases still : x.fr.stillServes (r.u16 0x20)
      · rw [Runner.servingFor_eq_some still, serves still]
      · rw [Runner.servingFor_eq_none still, not still]
    have parks : s.decideUrgentBand r = t.callPullIn p serving.isSome := by
      rw [decided, if_neg (not_not.2 active), if_neg (Nat.not_le.2 room), frame]
    have isRelaxed : (t.pipe p).relaxed = true ↔ relaxed := by rw [pipe]; exact PipeState.relaxed_iff _
    have state : (t.pipe p).fr.state = x.fr.state := by rw [pipe]; rfl
    refine ⟨fun hr running none => ?_, fun hr stretch apart => ?_, fun other => ?_⟩
    · refine becomes_of_decision rfl h (parks.trans ?_) (versionsParked true)
      rw [show serving.isSome = false by rw [none]; rfl,
        State.callPullIn_running (isRelaxed.2 hr) (state.trans running), State.serveCompletions_eq]
      cases p <;> rfl
    · rw [← served]
      refine endsFrame_of_decision rfl h (parks.trans ?_) ?_ (State.parkedOn_steady r ⟨rfl, rfl, rfl⟩) rfl versions
      · exact State.callPullIn_stretch _ (isRelaxed.2 hr) (state.trans stretch)
      · cases p <;> exact apart
    · refine becomes_of_decision rfl h (parks.trans ?_) (versionsParked _)
      rw [State.callPullIn_none, served]
      rw [isRelaxed, state]
      rintro ⟨hr, ⟨running, unserved⟩ | stretch⟩
      · exact other ⟨hr, .inl ⟨running, Option.isNone_iff_eq_none.1 (by simpa using unserved)⟩⟩
      · exact other ⟨hr, .inr stretch⟩

end Sys2Proof.Machine
end

section
/-! PROOF. After an event each status record shows its block (R20, R99, R100, R147, R149). -/

namespace Sys2Proof.Machine

/-- Work Memory shows every status record of the state. -/
structure State.Shown (s : State) : Prop where
  pipes    : ∀ p, s.mem.readBytes (pipeRecordBase p) 512 = s.pipeRecord p
  surfaces : ∀ k, s.mem.readBytes (surfaceRecordBase k) 128 = s.surfaceRecord k
  bank     : s.mem.readBytes bankRecordBase 64 = s.bank.bytes
  ref      : s.mem.readBytes refRecordBase 64 = s.ref.bytes

/-! Records apart from the one that is rewritten. -/

section

variable (s t : State) (p : Pipe) (k : Surface) (b n : Nat)

theorem publishPipe_apart (h : b + n ≤ pipeRecordBase p ∨ pipeRecordBase p + 512 ≤ b) :
    (publishPipe s p t).mem.readBytes b n = t.mem.readBytes b n :=
  Memory.readBytes_congr fun a _ _ => publishPipe_read s t p a fun inside => by unfold inRange at inside; omega

theorem publishSurface_apart (h : b + n ≤ surfaceRecordBase k ∨ surfaceRecordBase k + 128 ≤ b) :
    (publishSurface s k t).mem.readBytes b n = t.mem.readBytes b n :=
  Memory.readBytes_congr fun a _ _ => publishSurface_read s t k a fun inside => by unfold inRange at inside; omega

theorem publishBank_apart (h : b + n ≤ bankRecordBase ∨ bankRecordBase + 64 ≤ b) :
    (publishBank s t).mem.readBytes b n = t.mem.readBytes b n :=
  Memory.readBytes_congr fun a _ _ => publishBank_read s t a fun inside => by unfold inRange at inside; omega

theorem publishRef_apart (h : b + n ≤ refRecordBase ∨ refRecordBase + 64 ≤ b) :
    (publishRef s t).mem.readBytes b n = t.mem.readBytes b n :=
  Memory.readBytes_congr fun a _ _ => publishRef_read s t a fun inside => by unfold inRange at inside; omega

end

/-! One record: rewritten, or as it was. -/

section

variable {s t : State} {p : Pipe} {k : Surface}

theorem publishPipe_shows (before : t.mem.readBytes (pipeRecordBase p) 512 = s.pipeRecord p)
    (version : (t.pipe p).version = (s.pipe p).version) :
    (publishPipe s p t).mem.readBytes (pipeRecordBase p) 512 = (publishPipe s p t).pipeRecord p := by
  unfold publishPipe
  split
  next same =>
    rw [before]
    unfold State.pipeRecord
    rw [same, version]
  next =>
    have length : ((t.modPipe p fun x => { x with version := x.version + 1 }).pipeRecord p).length = 512 :=
      State.pipeRecord_length _ p
    have written := Memory.readBytes_writeBytes t.mem (pipeRecordBase p)
      ((t.modPipe p fun x => { x with version := x.version + 1 }).pipeRecord p)
    rw [length] at written
    exact written

theorem publishSurface_shows (before : t.mem.readBytes (surfaceRecordBase k) 128 = s.surfaceRecord k)
    (version : (t.surf k).version = (s.surf k).version) :
    (publishSurface s k t).mem.readBytes (surfaceRecordBase k) 128 = (publishSurface s k t).surfaceRecord k := by
  unfold publishSurface
  split
  next same =>
    rw [before]
    unfold State.surfaceRecord
    rw [same, version]
  next =>
    have length : ((t.modSurf k fun x => { x with version := x.version + 1 }).surfaceRecord k).length = 128 :=
      State.surfaceRecord_length _ k
    have written := Memory.readBytes_writeBytes t.mem (surfaceRecordBase k)
      ((t.modSurf k fun x => { x with version := x.version + 1 }).surfaceRecord k)
    rw [length] at written
    exact written

theorem publishBank_shows (before : t.mem.readBytes bankRecordBase 64 = s.bank.bytes) :
    (publishBank s t).mem.readBytes bankRecordBase 64 = (publishBank s t).bank.bytes := by
  unfold publishBank
  split
  next same => rw [before, same]
  next =>
    have length : (t.modBank fun b => { b with version := b.version + 1 }).bank.bytes.length = 64 := Bank.bytes_length _
    have written := Memory.readBytes_writeBytes t.mem bankRecordBase
      (t.modBank fun b => { b with version := b.version + 1 }).bank.bytes
    rw [length] at written
    exact written

/-- The reference record shows the mirrored fields and the version alone. -/
theorem RefUnit.bytes_congr {x y : RefUnit} (fields : x.mirrored = y.mirrored) (version : x.version = y.version) :
    x.bytes = y.bytes := by
  unfold RefUnit.mirrored at fields
  obtain ⟨source, fref, present, lastPulse, earlyCount⟩ := by simpa only [Prod.mk.injEq] using fields
  unfold RefUnit.bytes
  rw [version, source, fref, present, lastPulse, earlyCount]

theorem publishRef_shows (before : t.mem.readBytes refRecordBase 64 = s.ref.bytes)
    (version : t.ref.version = s.ref.version) :
    (publishRef s t).mem.readBytes refRecordBase 64 = (publishRef s t).ref.bytes := by
  unfold publishRef
  split
  next same => rw [before, RefUnit.bytes_congr same version]
  next =>
    have length : (t.modRef fun r => { r with version := r.version + 1 }).ref.bytes.length = 64 := RefUnit.bytes_length _
    have written := Memory.readBytes_writeBytes t.mem refRecordBase
      (t.modRef fun r => { r with version := r.version + 1 }).ref.bytes
    rw [length] at written
    exact written

end

/-- An event whose Work Memory shows the records as they stood before it ends with the records as they stand after it. -/
theorem publish_shown {s t : State} (versions : SameVersions s t)
    (pipes : ∀ p, t.mem.readBytes (pipeRecordBase p) 512 = s.pipeRecord p)
    (surfaces : ∀ k, t.mem.readBytes (surfaceRecordBase k) 128 = s.surfaceRecord k)
    (bank : t.mem.readBytes bankRecordBase 64 = s.bank.bytes)
    (ref : t.mem.readBytes refRecordBase 64 = s.ref.bytes) : (publish s t).Shown := by
  obtain ⟨pipeVersions, surfaceVersions, -, refVersion⟩ := versions
  unfold publish
  refine ⟨fun p => ?_, fun k => ?_, ?_, ?_⟩
  · rw [publishRef_apart _ _ _ _ (by cases p <;> decide), publishBank_apart _ _ _ _ (by cases p <;> decide),
      publishSurface_apart _ _ _ _ _ (by cases p <;> decide), publishSurface_apart _ _ _ _ _ (by cases p <;> decide)]
    unfold State.pipeRecord
    simp only [publishRef_pipeView, publishBank_pipeView, publishSurface_pipeView, publishRef_pipe, publishBank_pipe,
      publishSurface_pipe]
    cases p with
    | p0 =>
      rw [publishPipe_apart _ _ _ _ _ (by decide), publishPipe_pipeView, publishPipe_pipe_version,
        if_neg (fun h => nomatch h.1)]
      exact publishPipe_shows (pipes .p0) (pipeVersions .p0)
    | p1 =>
      refine publishPipe_shows ((publishPipe_apart _ _ _ _ _ (by decide)).trans (pipes .p1)) ?_
      rw [publishPipe_pipe_version, if_neg (fun h => nomatch h.1)]
      exact pipeVersions .p1
  · rw [publishRef_apart _ _ _ _ (by cases k <;> decide), publishBank_apart _ _ _ _ (by cases k <;> decide)]
    unfold State.surfaceRecord
    simp only [publishRef_surfaceView, publishBank_surfaceView, publishRef_surf, publishBank_surf]
    cases k with
    | s0 =>
      rw [publishSurface_apart _ _ _ _ _ (by decide), publishSurface_surfaceView, publishSurface_surf_version,
        if_neg (fun h => nomatch h.1)]
      refine publishSurface_shows ?_ (by simpa using surfaceVersions .s0)
      rw [publishPipe_apart _ _ _ _ _ (by decide), publishPipe_apart _ _ _ _ _ (by decide), surfaces]
    | s1 =>
      refine publishSurface_shows ?_ ?_
      · rw [publishSurface_apart _ _ _ _ _ (by decide), publishPipe_apart _ _ _ _ _ (by decide),
          publishPipe_apart _ _ _ _ _ (by decide), surfaces]
      · rw [publishSurface_surf_version, if_neg (fun h => nomatch h.1)]
        simpa using surfaceVersions .s1
  · rw [publishRef_apart _ _ _ _ (by decide), publishRef_bank]
    refine publishBank_shows ?_
    rw [publishSurface_apart _ _ _ _ _ (by decide), publishSurface_apart _ _ _ _ _ (by decide),
      publishPipe_apart _ _ _ _ _ (by decide), publishPipe_apart _ _ _ _ _ (by decide), bank]
  · refine publishRef_shows ?_ (by simpa using refVersion)
    rw [publishBank_apart _ _ _ _ (by decide), publishSurface_apart _ _ _ _ _ (by decide),
      publishSurface_apart _ _ _ _ _ (by decide), publishPipe_apart _ _ _ _ _ (by decide),
      publishPipe_apart _ _ _ _ _ (by decide), ref]

end Sys2Proof.Machine
end

section
/-! PROOF. The end of an initialisation (R4, R5, R15, R21, R104, R107). -/

namespace Sys2Proof.Machine

/-! What the work of an initialisation has stored. -/

theorem abandonList_read_off (l : List (Fin 16)) (s : State) (a : Nat) (h : ∀ c ∈ l, ¬ inRange a (cellBase c) 8) :
    (l.foldl State.abandonCell s).mem.read a = s.mem.read a := by
  induction l generalizing s with
  | nil => rfl
  | cons c l ih =>
    exact (ih _ fun d hd => h d (.tail _ hd)).trans (s.abandonCell_read_off c a (h c (.head _)))

/-- A word of one cell is not written by abandoning others. -/
theorem abandonList_readWord_off (l : List (Fin 16)) (s : State) {d : Fin 16} {o : Nat} (out : d ∉ l)
    (inside : o + 4 ≤ 256) :
    (l.foldl State.abandonCell s).mem.readWord (cellBase d + o) = s.mem.readWord (cellBase d + o) := by
  refine Memory.readWord_congr fun a h1 h2 => abandonList_read_off l s a fun c hc => ?_
  have apart := cellBase_apart (c := c) (d := d) (by rintro rfl; exact out hc)
  unfold inRange
  omega

/-- An abandoned cell's code word is 0, and its status word ABANDONED with the tag. -/
theorem abandonList_words {l : List (Fin 16)} (nodup : l.Nodup) (s : State) {d : Fin 16} (h : d ∈ l) :
    (l.foldl State.abandonCell s).mem.readWord (cellBase d) = 0 ∧
    (l.foldl State.abandonCell s).mem.readWord (cellBase d + 4) = abandonedWord (s.mem.readWord (cellBase d)) := by
  induction l generalizing s with
  | nil => exact nomatch h
  | cons c l ih =>
    obtain ⟨out, nodup⟩ := List.nodup_cons.1 nodup
    rw [List.foldl_cons]
    rcases List.mem_cons.1 h with rfl | inList
    · exact ⟨(abandonList_readWord_off l _ (o := 0) out (by omega)).trans (s.abandonCell_code d),
        (abandonList_readWord_off l _ out (by omega)).trans (s.abandonCell_status d)⟩
    · have apart : d ≠ c := by rintro rfl; exact out inList
      have kept : (s.abandonCell c).mem.readWord (cellBase d) = s.mem.readWord (cellBase d) :=
        abandonList_readWord_off [c] s (o := 0) (by simpa using apart) (by omega)
      obtain ⟨code, status⟩ := ih nodup (s.abandonCell c) inList
      exact ⟨code, by rw [status, kept]⟩

/-- Abandoning the part-owned cells writes no claim word. -/
theorem State.abandonCells_claim (s : State) (b : Fin 16) :
    s.abandonCells.mem.readWord (blockBase b) = s.mem.readWord (blockBase b) := by
  refine Memory.readWord_congr fun a h1 h2 => abandonList_read_off _ s a fun c _ => ?_
  have := cellBase_le c
  unfold inRange
  unfold blockBase at h1
  omega

/-- What a finished initialisation leaves, but for Work Memory. -/
theorem State.initialised_eq (s : State) : s.initialised = { s with
    mem := s.initialised.mem, cells := Vector.replicate 16 .hostOwned,
    filledMarks := Vector.ofFn fun b => decide (s.mem.readWord (blockBase b) ≠ 0),
    rpw := { blocks := Vector.ofFn fun b => if s.mem.readWord (blockBase b) = 0 then .free else .filled,
             freeList := (List.finRange 16).filter fun b => decide (s.mem.readWord (blockBase b) = 0),
             writer := none, nextSeq := ⟨1, 1⟩ } } := by
  have frame := (initialises_initialised s).frame
  have cells : s.initialised.cells = Vector.replicate 16 .hostOwned := by
    refine Vector.ext fun i hi => ?_
    rw [Vector.getElem_replicate]
    exact s.initialised_cells ⟨i, hi⟩
  obtain ⟨m, area, -⟩ := s.abandonCells.rebuildBlocks.writeStatusArea_spec
  have rebuilt := s.abandonCells.rebuildBlocks_eq
  simp only [State.abandonCells_claim] at rebuilt
  have blocks : s.initialised = { s.abandonCells.rebuildBlocks with mem := m } := area
  rw [rebuilt] at blocks
  rw [frame, cells]
  rw [blocks]

theorem State.initialised_read (s : State) {a : Nat} (h : a < 0x1000 ∨ 0x2000 ≤ a) :
    s.initialised.mem.read a = (s.partOwned.foldl State.abandonCell s).mem.read a := by
  obtain ⟨marks, w, rebuilt, -⟩ := s.abandonCells.rebuildBlocks_spec
  have area := s.abandonCells.rebuildBlocks.writeStatusArea_read_off a h
  rw [rebuilt] at area
  unfold State.initialised
  rw [rebuilt]
  exact area

/-- Past the records the status area and the plan pages are cleared. -/
theorem State.writeStatusArea_cleared (s : State) {a : Nat} (low : 0x1580 ≤ a) (high : a < 0x2000) :
    s.writeStatusArea.mem.read a = 0 := by
  simp only [State.writeStatusArea, pipeRecordBase, surfaceRecordBase, bankRecordBase, refRecordBase]
  rw [Memory.read_writeBytes_off _ _ _ _ (by simp; omega), Memory.read_writeBytes_off _ _ _ _ (by simp; omega),
    Memory.read_writeBytes_off _ _ _ _ (by simp; omega), Memory.read_writeBytes_off _ _ _ _ (by simp; omega),
    Memory.read_writeBytes_off _ _ _ _ (by simp; omega), Memory.read_writeBytes_off _ _ _ _ (by simp; omega),
    Memory.read_clear, if_pos (by omega)]

theorem State.initialised_cleared (s : State) {a : Nat} (low : 0x1580 ≤ a) (high : a < 0x2000) :
    s.initialised.mem.read a = 0 := by
  unfold State.initialised
  exact State.writeStatusArea_cleared _ low high

theorem State.initialised_shown (s : State) : s.initialised.Shown := by
  unfold State.initialised
  generalize s.abandonCells.rebuildBlocks = t
  obtain ⟨m, area, -⟩ := t.writeStatusArea_spec
  obtain ⟨pipes, surfaces, bank, ref⟩ := t.writeStatusArea_records
  rw [area] at pipes surfaces bank ref ⊢
  exact ⟨pipes, surfaces, bank, ref⟩

/-! The first instant of READY (R5, R21, R104, R107). -/

theorem State.enterProbing_eq (s : State) (p : Pipe) :
    s.enterProbing p = { s.withPipe p ((s.pipe p).probing s.time) with notice := { s.notice with
      pipe := s.notice.pipe || decide ((s.pipe p).lc.state ≠ .probing) } } := by
  unfold State.enterProbing
  rw [State.sendMessage_eq, State.setLink_eq]
  cases p <;> rfl

theorem State.enterProbing_off {s : State} {p : Pipe} (off : (s.pipe p).lc.state = .off) :
    s.enterProbing p = { s.withPipe p ((s.pipe p).probing s.time) with notice := { s.notice with pipe := true } } := by
  have changes : decide ((s.pipe p).lc.state ≠ .probing) = true := decide_eq_true (by rw [off]; nofun)
  rw [State.enterProbing_eq, changes, Bool.or_true]

/-- With no contract in force the first pulse moves no pipe. -/
theorem State.refPulse_alone {s : State} (h : ∀ p, (s.pipe p).pb.contract = none) :
    s.refPulse.finish = (s.modRef fun r => { r with lastPulse := some s.time }).pulsePins .reference := by
  have follows : ∀ t : State, t.pipes = s.pipes → ∀ p, t.takeRefPulse p = (t, false) := fun t ht p => by
    have contract : (t.pipe p).pb.contract = none := by
      unfold State.pipe
      rw [ht]
      exact h p
    refine if_neg fun f => ?_
    have := of_decide_eq_true f
    rw [contract] at this
    exact nomatch this
  unfold State.refPulse
  dsimp only
  generalize ht : (s.modRef fun r => { r with lastPulse := some s.time }).pulsePins .reference = t
  have pipes : t.pipes = s.pipes := by rw [← ht]; rfl
  rw [follows t pipes .p0]
  dsimp only
  rw [follows t pipes .p1]
  rfl

/-- READY with both links OFF and no contract in force. -/
theorem State.becomeReady_eq {s : State} (off : ∀ p, (s.pipe p).lc.state = .off)
    (none : ∀ p, (s.pipe p).pb.contract = none) : s.becomeReady = { s with
      ready := true, notice := { s.notice with pipe := true },
      pipes := ⟨(s.pipe .p0).probing s.time, (s.pipe .p1).probing s.time⟩,
      ref := { s.ref with genPhase := some (tuAfter s.time s.ref.fref), lastPulse := some s.time },
      pins := pinsPulsed s.pins .reference s.time } := by
  have probes : ({ s with ready := true }.enterProbing .p0).enterProbing .p1 = { s with
      ready := true, notice := { s.notice with pipe := true },
      pipes := ⟨(s.pipe .p0).probing s.time, (s.pipe .p1).probing s.time⟩ } := by
    rw [State.enterProbing_off (s := { s with ready := true }) (off .p0)]
    exact State.enterProbing_off (off .p1)
  unfold State.becomeReady
  rw [probes]
  dsimp only
  rw [State.refPulse_alone fun p => by cases p <;> exact none _, State.pulsePins_eq]
  rfl

/-- The status records end at 0x1580. -/
theorem State.not_recordChanged (s t : State) {a : Nat} (h : a < 0x1000 ∨ 0x1580 ≤ a) : ¬ s.recordChanged t a := by
  unfold State.recordChanged inRange
  rintro (⟨p, h', -⟩ | ⟨k, h', -⟩ | ⟨h', -⟩ | ⟨h', -⟩)
  · cases p <;> simp only [pipeRecordBase] at h' <;> omega
  · cases k <;> simp only [surfaceRecordBase] at h' <;> omega
  · simp only [bankRecordBase] at h'; omega
  · simp only [refRecordBase] at h'; omega

/-- Settles O4: the initialisation's work, then READY, each by what it leaves. -/
theorem initialisationEndsReady : Obligations.InitialisationEndsReady := by
  unfold Obligations.InitialisationEndsReady
  rintro s ⟨coherent, -, starting⟩
  refine ⟨fun ready => congrArg _ (if_pos ready), fun unready => ?_⟩
  have off := (starting unready).2
  have noContract : ∀ p, (s.pipe p).pb.contract = none := fun p => by
    rw [← Option.not_isSome_iff_eq_none, (coherent p).contract, off p]
    simp
  have ends : exec .initialisationCompletion s = .next (publish s.initialised s.initialised.becomeReady) := by
    unfold exec execInitialisationCompletion
    rw [if_neg (by rw [unready]; nofun)]
  have initialised := s.initialised_eq
  have shown := s.initialised_shown
  have cleared := fun a => s.initialised_cleared (a := a)
  have stored := fun a => s.initialised_read (a := a)
  generalize s.initialised = i at *
  have ready : i.becomeReady = _ := State.becomeReady_eq (s := i) (fun p => by rw [initialised]; exact off p)
    (fun p => by rw [initialised]; exact noContract p)
  have versions : SameVersions i i.becomeReady := by
    rw [ready]
    exact ⟨fun p => by cases p <;> rfl, fun _ => rfl, rfl, rfl⟩
  have mem : i.becomeReady.mem = i.mem := by rw [ready]
  have published : ∀ a, a < 0x1000 ∨ 0x1580 ≤ a → (publish i i.becomeReady).mem.read a = i.mem.read a := fun a ha =>
    (publish_read i _ versions a (State.not_recordChanged _ _ ha)).trans (congrArg (·.read a) mem)
  have word : ∀ a, a + 4 ≤ 0x1000 → (publish i i.becomeReady).mem.readWord a =
      (s.partOwned.foldl State.abandonCell s).mem.readWord a := fun a ha =>
    Memory.readWord_congr fun x _ _ => (published x (by omega)).trans (stored x (by omega))
  obtain ⟨pipes, surfaces, bank, ref⟩ := publish_shown versions (fun p => mem ▸ shown.pipes p)
    (fun k => mem ▸ shown.surfaces k) (mem ▸ shown.bank) (mem ▸ shown.ref)
  refine ⟨_, ends, ?_, fun c owned => ?_, fun a out region => ?_, fun a low high => ?_, pipes, surfaces, bank, ref⟩
  · rw [publish_bare, ready, initialised]
    rfl
  · have low := cellBase_le c
    obtain ⟨code, status⟩ := abandonList_words s.partOwned_nodup s (State.mem_partOwned.2 owned)
    exact ⟨(word _ (by omega)).trans code, (word _ (by omega)).trans status⟩
  · rw [published a (by omega), stored a region]
    exact abandonList_read_off _ s a fun c hc => out c (State.mem_partOwned.1 hc)
  · rw [published a (.inr low), cleared a low high]

end Sys2Proof.Machine
end

section
/-! PROOF. Which parts of the state an operation touches, and that the status records are left to `publish` (R20, R99,
R100, R147, R149). -/

namespace Sys2Proof.Machine

/-- The parts of the state that the status records show. -/
inductive Part where
  | pipe (p : Pipe)
  | sensing
  | reference
  | quiet

/-- What `Within` speaks of. -/
def State.seen (s : State) :=
  (s.mem, s.ready, s.pipes, s.surfaces, s.bank, s.pct, s.ref, s.quietSpans, s.shiftMax)

/-- What leads from `s` to `t` touches no part outside `F`, writes no status record and raises no version word. -/
structure Within (F : Set Part) (s t : State) : Prop where
  versions  : SameVersions s t
  area      : ∀ a, 0x1000 ≤ a → a < 0x1800 → t.mem.read a = s.mem.read a
  ready     : t.ready = s.ready
  pipe      : ∀ p, .pipe p ∉ F → t.pipe p = s.pipe p
  sensing   : .sensing ∉ F → t.surfaces = s.surfaces ∧ t.bank = s.bank ∧ t.pct = s.pct
  reference : .reference ∉ F → t.ref = s.ref
  quiet     : .quiet ∉ F → t.quietSpans = s.quietSpans ∧ t.shiftMax = s.shiftMax

namespace Within

variable {F : Set Part} {s t u : State}

theorem refl (F : Set Part) (s : State) : Within F s s where
  versions := SameVersions.refl s
  area _ _ _ := rfl
  ready := rfl
  pipe _ _ := rfl
  sensing _ := ⟨rfl, rfl, rfl⟩
  reference _ := rfl
  quiet _ := ⟨rfl, rfl⟩

theorem mono {G : Set Part} (h : Within F s t) (sub : F ⊆ G) : Within G s t where
  versions := h.versions
  area := h.area
  ready := h.ready
  pipe p out := h.pipe p fun inside => out (sub inside)
  sensing out := h.sensing fun inside => out (sub inside)
  reference out := h.reference fun inside => out (sub inside)
  quiet out := h.quiet fun inside => out (sub inside)

theorem trans (h : Within F s t) (h' : Within F t u) : Within F s u where
  versions := h.versions.trans h'.versions
  area a low high := (h'.area a low high).trans (h.area a low high)
  ready := h'.ready.trans h.ready
  pipe p hp := (h'.pipe p hp).trans (h.pipe p hp)
  sensing hk := by
    obtain ⟨surfaces, bank, timer⟩ := h.sensing hk
    obtain ⟨surfaces', bank', timer'⟩ := h'.sensing hk
    exact ⟨surfaces'.trans surfaces, bank'.trans bank, timer'.trans timer⟩
  reference hr := (h'.reference hr).trans (h.reference hr)
  quiet hq := ⟨(h'.quiet hq).1.trans (h.quiet hq).1, (h'.quiet hq).2.trans (h.quiet hq).2⟩

/-- An update of what the status records do not show. -/
theorem same (h : Within F s t) (e : u.seen = t.seen) : Within F s u := by
  simp only [State.seen, Prod.mk.injEq] at e
  obtain ⟨mem, ready, pipes, surfaces, bank, timer, ref, spans, shift⟩ := e
  have pipe : ∀ p, u.pipe p = t.pipe p := fun p => by simp only [State.pipe, pipes]
  have surf : ∀ k, u.surf k = t.surf k := fun k => by simp only [State.surf, surfaces]
  exact h.trans
    { versions := ⟨fun p => by rw [pipe], fun k => by rw [surf], by rw [bank], by rw [ref]⟩
      area := fun _ _ _ => by rw [mem]
      ready := ready
      pipe := fun p _ => pipe p
      sensing := fun _ => ⟨surfaces, bank, timer⟩
      reference := fun _ => ref
      quiet := fun _ => ⟨spans, shift⟩ }

/-- A store outside the status area. -/
theorem store (h : Within F s t) (m : Memory) (hm : ∀ a, 0x1000 ≤ a → a < 0x1800 → m.read a = t.mem.read a) :
    Within F s { t with mem := m } :=
  h.trans { refl F t with area := hm }

/-! Updates of one part. -/

theorem modPipe (h : Within F s t) {p : Pipe} (hp : .pipe p ∈ F) (g : PipeState → PipeState)
    (hv : ∀ x, (g x).version = x.version := by intro _; rfl) : Within F s (t.modPipe p g) :=
  h.trans
    { refl F t with
      versions := ⟨fun q => by cases p <;> cases q <;> first | exact hv _ | rfl, fun _ => rfl, rfl, rfl⟩
      pipe := fun q hq => by
        have other : q ≠ p := fun e => hq (e ▸ hp)
        cases p <;> cases q <;> first | rfl | exact absurd rfl other }

theorem modLc (h : Within F s t) {p : Pipe} (hp : .pipe p ∈ F) (g : LinkCtl → LinkCtl) : Within F s (t.modLc p g) :=
  h.modPipe hp _

theorem modPb (h : Within F s t) {p : Pipe} (hp : .pipe p ∈ F) (g : PlanBuilder → PlanBuilder) :
    Within F s (t.modPb p g) := h.modPipe hp _

theorem modFr (h : Within F s t) {p : Pipe} (hp : .pipe p ∈ F) (g : Runner → Runner) : Within F s (t.modFr p g) :=
  h.modPipe hp _

theorem modLock (h : Within F s t) {p : Pipe} (hp : .pipe p ∈ F) (g : LockCtl → LockCtl) : Within F s (t.modLock p g) :=
  h.modPipe hp _

theorem modSurf (h : Within F s t) (hk : .sensing ∈ F) (k : Surface) (g : SurfaceState → SurfaceState)
    (hv : ∀ x, (g x).version = x.version := by intro _; rfl) : Within F s (t.modSurf k g) :=
  h.trans
    { refl F t with
      versions := ⟨fun _ => rfl, fun f => by cases k <;> cases f <;> first | exact hv _ | rfl, rfl, rfl⟩
      sensing := fun out => absurd hk out }

theorem modBank (h : Within F s t) (hk : .sensing ∈ F) (g : Bank → Bank)
    (hv : ∀ x, (g x).version = x.version := by intro _; rfl) : Within F s (t.modBank g) :=
  h.trans
    { refl F t with
      versions := ⟨fun _ => rfl, fun _ => rfl, hv _, rfl⟩
      sensing := fun out => absurd hk out }

theorem timer (h : Within F s t) (hk : .sensing ∈ F) (x : PadTimer) : Within F s { t with pct := x } :=
  h.trans { refl F t with sensing := fun out => absurd hk out }

theorem modRef (h : Within F s t) (hr : .reference ∈ F) (g : RefUnit → RefUnit)
    (hv : ∀ x, (g x).version = x.version := by intro _; rfl) : Within F s (t.modRef g) :=
  h.trans
    { refl F t with
      versions := ⟨fun _ => rfl, fun _ => rfl, rfl, hv _⟩
      reference := fun out => absurd hr out }

theorem quietSet (h : Within F s t) (hq : .quiet ∈ F) (spans : List Span) (shift : Nat) :
    Within F s { t with quietSpans := spans, shiftMax := shift } :=
  h.trans { refl F t with quiet := fun out => absurd hq out }

/-! Faults, links, locks and messages. -/

theorem noticePipe (h : Within F s t) : Within F s t.noticePipe := h.same rfl

theorem noticeFault (h : Within F s t) : Within F s t.noticeFault := h.same rfl

theorem modRpw (h : Within F s t) (g : ReportWriter → ReportWriter) : Within F s (t.modRpw g) := h.same rfl

theorem draw (h : Within F s t) : Within F s (t.draw).2 := h.same rfl

theorem pulsePins (h : Within F s t) (src : PinSource) : Within F s (t.pulsePins src) := h.same rfl

theorem finish {x : Handing} (h : Within F s x.1) : Within F s x.finish := by
  obtain ⟨q, n, he, -⟩ := State.handOverGroups_spec x.1 x.2
  have hf : x.finish = { x.1 with rqi := q, free := n } := he
  rw [hf]
  exact h.same rfl

theorem serveCompletions (h : Within F s t) : Within F s t.serveCompletions := by
  rw [State.serveCompletions_eq]
  exact h.same rfl

theorem raisePipeFault (h : Within F s t) {p : Pipe} (hp : .pipe p ∈ F) (f : PipeFault) :
    Within F s (t.raisePipeFault p f) := by
  unfold State.raisePipeFault
  split
  · exact h
  · exact (h.modPipe hp _).noticeFault

theorem raiseSurfaceFault (h : Within F s t) (hk : .sensing ∈ F) (k : Surface) (f : SurfaceFault) :
    Within F s (t.raiseSurfaceFault k f) := by
  unfold State.raiseSurfaceFault
  split
  · exact h
  · exact (h.modSurf hk k _).noticeFault

section

variable (h : Within F s t) {p : Pipe} (hp : .pipe p ∈ F)

include h hp

theorem setLink (x : LinkState) : Within F s (t.setLink p x) := by
  unfold State.setLink
  dsimp only
  split
  · exact h.modLc hp _
  · exact (h.modLc hp _).noticePipe

theorem setLock (g : LockCtl → LockCtl) : Within F s (t.setLock p g) := by
  unfold State.setLock
  dsimp only
  split
  · exact h.modLock hp g
  · exact (h.modLock hp g).noticePipe

theorem sendMessage (m : TxMessage) (b : Bool) : Within F s (t.sendMessage p m b) := by
  unfold State.sendMessage
  split
  · exact h.modLc hp _
  · exact h.modLc hp _

theorem makePlan (n : Word) (c : Contract) : Within F s (t.makePlan p n c) :=
  (h.modPb hp _).store _ fun a _ high => Memory.read_writeBytes_off _ _ _ a fun inside => by
    have base : 0x1800 ≤ planPageBase p := by cases p <;> decide
    omega

theorem enterSelecting (c : Contract) : Within F s (t.enterSelecting p c) :=
  (((h.setLink hp _).setLock hp _).modLc hp _).sendMessage hp _ _

theorem enterProbing : Within F s (t.enterProbing p) := ((h.setLink hp _).modLc hp _).sendMessage hp _ _

theorem beginAdmission : Within F s (t.beginAdmission p) := (h.modPb hp _).enterSelecting hp _

theorem measureLock (c : Contract) : Within F s (t.measureLock p c) := by
  unfold State.measureLock
  dsimp only
  split
  · exact (h.setLock hp _).raisePipeFault hp _
  · exact h.setLock hp _

theorem measureIfFollowing (c : Contract) : Within F s (t.measureIfFollowing p c) := by
  unfold State.measureIfFollowing
  split
  · exact h.measureLock hp c
  · exact h.modLock hp _

theorem loseSource (g : LockCtl → LockCtl) : Within F s (t.loseSource p g) := (h.setLock hp _).raisePipeFault hp _

theorem lockAtChange (old c : Contract) : Within F s (t.lockAtChange p old c) := by
  unfold State.lockAtChange
  split
  · split
    · exact h.measureIfFollowing hp c
    · split
      · exact (h.setLock hp _).measureLock hp c
      · exact h.loseSource hp _
  · exact h.setLock hp _

theorem lockAtFrameStart (how : StartKind) (old : Option Contract) : Within F s (t.lockAtFrameStart p how old) := by
  have h' := h.modLock hp fun l => { l with lastFrameStart := some t.time }
  unfold State.lockAtFrameStart
  cases how with
  | entry => exact h'.modLock hp _
  | aligned => exact h'.setLock hp _
  | deadline => exact h'.loseSource hp _
  | next =>
    dsimp only
    split
    · exact h'.lockAtChange hp _ _
    · exact h'.measureIfFollowing hp _
    · exact h'

theorem takePulse : Within F s (t.takePulse p).1 := by
  have taken : Within F s (t.takeLockPulse p) := h.setLock hp _
  unfold State.takePulse
  dsimp only
  split
  · exact taken.modFr hp fun r => { r with alignedStart := some _, alignDeadline := none }
  · exact taken

theorem takeRefPulse : Within F s (t.takeRefPulse p).1 := by
  unfold State.takeRefPulse
  split
  · exact h.takePulse hp
  · exact h

theorem releaseSlot (x : Option Slot) : Within F s (t.releaseSlot p x) := by
  unfold State.releaseSlot
  split
  · exact h.modFr hp _
  · exact h

theorem emitMark (w : Word) : Within F s (t.emitMark p w) := h.modFr hp _

theorem announceFrame : Within F s (t.announceFrame p) := (h.modLc hp _).sendMessage hp _ _

/-! Frame starts (R85 to R87). -/

theorem startLocal (how : StartKind) : Within F s (t.startLocal p how).1 :=
  (((((((h.modFr hp _).modPb hp _).emitMark hp _).announceFrame hp).lockAtFrameStart hp how _).pulsePins
    (.frameStart p)).releaseSlot hp _)

end

/-- The parts that a frame start of a pipe may touch: the pipe, and a pipe that follows its frame starts (R86). -/
structure Starts (F : Set Part) (s : State) (p : Pipe) : Prop where
  self : .pipe p ∈ F
  peer : (s.pipe (otherPipe p)).follows .lockedPeer = true → .pipe (otherPipe p) ∈ F

/-- The parts that an event of a pipe may touch: what its frame start may, and, of pipe 1, the sensing of surface 0
(R35 to R37, R90). -/
structure Reaches (F : Set Part) (s : State) (p : Pipe) : Prop extends Starts F s p where
  sensing : p = .p1 → .sensing ∈ F

theorem Starts.peerNow {p : Pipe} (hp : Starts F s p) (h : Within F s t)
    (follows : (t.pipe (otherPipe p)).follows .lockedPeer = true) : .pipe (otherPipe p) ∈ F := by
  by_cases inside : Part.pipe (otherPipe p) ∈ F
  · exact inside
  · exact hp.peer (h.pipe _ inside ▸ follows)

theorem startFrame (h : Within F s t) {p : Pipe} (hp : Starts F s p) (how : StartKind) :
    Within F s (t.startFrame p how).1 := by
  have started := h.startLocal hp.self how
  unfold State.startFrame
  dsimp only
  split
  next follows =>
    have peer := hp.peerNow started follows
    have pulsed := started.takePulse peer
    split
    · have both := pulsed.startLocal peer .aligned
      split
      · exact both.takePulse hp.self
      · exact both
    · exact pulsed
  next => exact started

theorem startBoth (ps : List Pipe) : ∀ {t : State}, Within F s t → (∀ p ∈ ps, Starts F s p) →
    Within F s (t.startBoth ps).1 := by
  induction ps with
  | nil => exact fun h _ => h
  | cons p ps ih =>
    intro t h hp
    exact ih (h.startFrame (hp p (by simp)) .aligned) fun q hq => hp q (by simp [hq])

theorem refPulse (h : Within F s t) (hr : .reference ∈ F) (hp : ∀ p, Starts F s p) : Within F s t.refPulse.1 := by
  have noted : Within F s ((t.modRef fun r => { r with lastPulse := some t.time }).pulsePins .reference) :=
    (h.modRef hr _).pulsePins _
  have taken := (noted.takeRefPulse (hp .p0).self).takeRefPulse (hp .p1).self
  unfold State.refPulse
  dsimp only
  split
  · exact taken
  · exact taken.startFrame (hp .p0) _
  · exact taken.startFrame (hp .p1) _
  · exact startBoth _ taken.draw fun p _ => hp p

/-! Bursts and plans. -/

theorem slotCompleted (h : Within F s t) {p : Pipe} (hp : .pipe p ∈ F) (x : Option Slot) :
    Within F s (t.slotCompleted p x).1 := by
  unfold State.slotCompleted
  split
  next first count =>
    unfold State.burstCompleted
    dsimp only
    split
    · exact (h.modFr hp fun r => { r with bands := _ }).raisePipeFault hp _
    · exact h.modFr hp fun r => { r with bands := _ }
  next => exact h

theorem planPoint (h : Within F s t) {p : Pipe} (hp : .pipe p ∈ F) : Within F s (t.planPoint p) := by
  have staged : Within F s (t.stagedSelection p) := by
    unfold State.stagedSelection
    split
    · exact h.modPb hp _
    · exact h
  unfold State.planPoint
  dsimp only
  split
  · exact staged.makePlan hp _ _
  · exact staged

/-! The bank (R134 to R146). -/

section

variable (h : Within F s t) (hk : .sensing ∈ F)

include h hk

theorem countLoss (k : Surface) : Within F s (t.countLoss k) := h.modSurf hk k _

theorem loseRequest (k : Surface) : Within F s (t.loseRequest k) :=
  ((h.modBank hk _).raiseSurfaceFault hk k _).countLoss hk k

theorem startScan (r : BankRequest) : Within F s (t.startScan r).1 := by
  unfold State.startScan
  dsimp only
  split <;> dsimp only
  · exact (h.loseRequest hk _).modBank hk _
  · exact h.modBank hk _

theorem grant (r : BankRequest) : Within F s (t.grant r).1 := by
  unfold State.grant
  dsimp only
  split
  · exact (h.modBank hk _).startScan hk r
  · dsimp only
    exact (h.modBank hk _).modBank hk _

omit h in
theorem serveWaiting (n : Nat) : ∀ {t : State}, Within F s t → Within F s (t.serveWaiting n) := by
  induction n with
  | zero => exact id
  | succ n ih =>
    intro t h
    unfold State.serveWaiting
    split
    · exact h
    next r _ =>
      have granted : Within F s ((t.unwait r.surface).grant r).1 := (h.modBank hk _).grant hk r
      dsimp only
      split
      · exact ih granted
      · exact granted

theorem freeBank : Within F s t.freeBank := serveWaiting hk 2 h

theorem requestArrives (r : BankRequest) : Within F s (t.requestArrives r) := by
  unfold State.requestArrives
  dsimp only
  split
  · exact h.loseRequest hk _
  · split
    · split
      · exact (h.grant hk r).freeBank hk
      · exact h.grant hk r
    · split
      · exact (h.loseRequest hk _).modBank hk _
      · exact h.modBank hk _

theorem abortScan (k : Surface) : Within F s (t.abortScan k) := by
  unfold State.abortScan
  split
  · exact (h.modBank hk _).freeBank hk
  · exact h

theorem endBankUse (k : Surface) : Within F s (t.endBankUse k) := by
  have withdrawn : Within F s (t.unwait k) := h.modBank hk _
  unfold State.endBankUse
  dsimp only
  split
  · exact (withdrawn.modBank hk _).abortScan hk k
  · exact withdrawn.abortScan hk k

theorem endRetune : Within F s t.endRetune := by
  unfold State.endRetune
  split
  · dsimp only
    split
    · exact (h.startScan hk _).freeBank hk
    · exact h.startScan hk _
  · exact (h.modBank hk _).freeBank hk

theorem tickPad : Within F s t.tickPad :=
  (((h.timer hk { t.pct with tickCount := t.pct.tickCount + 1 }).requestArrives hk _).timer hk _)

/-! Touch frames and the writer's check. -/

theorem abandonFrame (k : Surface) : Within F s (t.abandonFrame k) := h.modSurf hk k _

theorem startWrite : Within F s t.startWrite := by
  unfold State.startWrite
  split
  · split
    · exact h
    · exact (h.modSurf hk _ _).modRpw _
  · exact h

theorem discardIfFull (k : Surface) : Within F s (t.discardIfFull k) := by
  unfold State.discardIfFull
  split
  · exact (h.modSurf hk k _).raiseSurfaceFault hk k _
  · exact h

theorem joinHeld (k : Surface) (f : TouchFrame) : Within F s (t.joinHeld k f) := by
  have joined := (h.discardIfFull hk k).modSurf hk k (fun x => { x with held := x.held ++ [{ f with joined := t.joinCounter }] })
  exact Within.startWrite (joined.same rfl) hk

theorem takeRow (k : Surface) (fresh : Bool) (now : Word) (src : RowSource) (ns : List Half) :
    Within F s (t.takeRow k fresh now src ns).1 := by
  unfold State.takeRow
  dsimp only
  split <;> dsimp only
  · exact (h.modSurf hk k (fun y => { y with asm := .empty, cursor := 0 })).joinHeld hk k _
  · exact h.modSurf hk k _

omit h in
theorem takeRows (k : Surface) (start : Word) (rowTime : Nat) (src : RowSource) (ns : Nat → List Half) (n : Nat) :
    ∀ (i : Nat) (fresh : Bool) {t : State}, Within F s t →
      Within F s (t.takeRows k start rowTime src ns n i fresh) := by
  induction n with
  | zero => exact fun _ _ _ h => h
  | succ n ih => exact fun i fresh _ h => ih (i + 1) _ (h.takeRow hk k fresh _ src (ns i))

theorem completeScan (r : BankRequest) (ns : List Half) : Within F s (t.completeScan r ns) := by
  unfold State.completeScan
  dsimp only
  refine freeBank (modBank ?_ hk _) hk
  split
  · refine raiseSurfaceFault (takeRows hk _ _ _ _ _ _ _ _ ?_) hk _ _
    split
    · exact h.same rfl
    · exact h
  · refine takeRows hk _ _ _ _ _ _ _ _ ?_
    split
    · exact h.same rfl
    · exact h

theorem setGeometry (k : Surface) (geo : Geometry) : Within F s (t.setGeometry k geo) := by
  have done := ((h.modSurf hk k (fun x => { x with geo := geo })).abortScan hk k).abandonFrame hk k
  unfold State.setGeometry
  dsimp only
  cases k with
  | s0 => exact done
  | s1 =>
    dsimp only
    split
    · exact done.timer hk _
    · exact done

theorem turnOn (k : Surface) : Within F s (t.turnOn k) := by
  have enabled := h.modSurf hk k (fun x => { x with enabled := true })
  cases k with
  | s0 => exact enabled
  | s1 => exact (enabled.timer hk _).tickPad hk

theorem turnOff (k : Surface) : Within F s (t.turnOff k) := by
  have done := ((h.modSurf hk k (fun x => { x with enabled := false })).endBankUse hk k).abandonFrame hk k
  cases k with
  | s0 => exact done
  | s1 => exact done.timer hk _

end

/-! Entry to ACTIVE, the end of a frame, and the events that may start one. -/

section

variable (h : Within F s t) {p : Pipe} (hp : Starts F s p)

include h hp

theorem enterActive (c : Contract) : Within F s (t.enterActive p c).1 := by
  have planned := ((h.setLink hp.self .active).modLc hp.self fun lc =>
    { lc.stopTimer with outstanding := none, missedAcks := 0, parkedAdmit := none }).makePlan hp.self 1 c
  unfold State.enterActive
  dsimp only
  split <;> dsimp only
  · exact (planned.setLock hp.self _).modFr hp.self _
  · exact ((planned.setLock hp.self _).modFr hp.self _).startFrame hp .entry

theorem endFrame : Within F s (t.endFrame p).1 := by
  unfold State.endFrame
  split
  · split
    · exact ((h.modFr hp.self _).modPb hp.self _).enterSelecting hp.self _
    · exact h.startFrame hp .next
  · exact h.startFrame hp .next

theorem receiveList (ms : List ModeRecord) : Within F s (t.receiveList p ms) := by
  have listed := (h.setLink hp.self .held).modLc hp.self fun lc => { lc.stopTimer with modes := ms }
  unfold State.receiveList
  split
  · exact h
  · split
    · dsimp only
      split
      · exact listed.beginAdmission hp.self
      · exact listed
    · exact h.modLc hp.self _

theorem receiveAck (e v : Byte) : Within F s (t.receiveAck p e v) := by
  unfold State.receiveAck
  split
  · split
    · split
      · exact (h.enterActive hp _).finish
      · exact h
    · exact h
  · split
    · exact h.modLc hp.self _
    · exact h
  · exact h

theorem endSending : Within F s (t.endSending p) := by
  unfold State.endSending
  split
  · exact h
  next x _ =>
    have sent := h.modLc hp.self fun lc =>
      { lc with sending := none, sent := lc.sent ++ [x.message],
                answerDeadline := if x.supervised then some (t.after x.message.answerTimer) else lc.answerDeadline }
    unfold State.sendWaiting
    split
    · exact sent
    · exact (sent.modLc hp.self _).modLc hp.self _

theorem startBlank : Within F s (t.startBlank p) :=
  finish (((h.slotCompleted hp.self _).modFr hp.self _).planPoint hp.self)

theorem endTrim : Within F s (t.endTrim p) := by
  unfold State.endTrim
  split
  · exact h.modFr hp.self _
  · exact (h.endFrame hp).finish

theorem callPullIn (served : Bool) : Within F s (t.callPullIn p served) := by
  unfold State.callPullIn
  split
  · refine serveCompletions ?_
    split
    · exact h
    · exact h.modFr hp.self _
  · exact (h.endFrame hp).finish.serveCompletions
  · exact h.serveCompletions

end

/-! Link stops and misses. -/

section

variable (h : Within F s t) {p : Pipe} (hp : Reaches F s p)

include h hp

theorem abortParked : Within F s (t.abortParked p).1 := by
  unfold State.abortParked
  dsimp only
  exact ((h.modLc hp.self _).modPb hp.self _).modFr hp.self _

theorem linkStop : Within F s (t.linkStop p).1 := by
  have stopped := ((((h.abortParked hp).modLc hp.self fun lc => { lc.stopTimer with outstanding := none }).modPb hp.self
    fun b => b.stopped).modFr hp.self fun r => r.stopped).setLock hp.self fun l => l.dropHistory .notLocking
  cases p with
  | p0 => exact stopped
  | p1 => exact (stopped.endBankUse (hp.sensing rfl) .s0).abandonFrame (hp.sensing rfl) .s0

theorem leaveLink : Within F s (t.leaveLink p).1 := by
  unfold State.leaveLink
  split
  · exact h.linkStop hp
  · dsimp only
    exact h.modLc hp.self _

theorem enterRecovery (why : StopReason) : Within F s (t.enterRecovery p why).1 := by
  have entered := (((h.leaveLink hp).setLink hp.self .recovery).modLc hp.self fun lc =>
    { lc with stopReason := why, recoveryCount := min 255 (lc.recoveryCount + 1), waiting := [],
              quietEnd := some (t.after quietIntervalTU) }).raisePipeFault hp.self .recovery
  unfold State.enterRecovery
  dsimp only
  split
  · exact entered.raisePipeFault hp.self _
  · exact entered

theorem enterOff (why : StopReason) : Within F s (t.enterOff p why).1 := by
  unfold State.enterOff
  dsimp only
  exact ((h.leaveLink hp).setLink hp.self _).modLc hp.self _

theorem missFrame : Within F s (t.missFrame p).1 := by
  have missed := (h.modLc hp.self fun lc =>
    { lc.stopTimer with outstanding := none, missedAcks := lc.missedAcks + 1 }).raisePipeFault hp.self .ackMissed
  unfold State.missFrame
  dsimp only
  split
  · exact missed.enterRecovery hp _
  · exact missed

/-! Messages, timers and slots to the end of their event. -/

theorem receiveNak : Within F s (t.receiveNak p) := by
  unfold State.receiveNak
  split
  · exact (h.enterRecovery hp _).finish
  · exact (h.missFrame hp).finish
  · exact h

theorem receivePanelFault (code : Byte) : Within F s (t.receivePanelFault p code) := by
  have stored := h.modLc hp.self fun lc => { lc with panelFault := code }
  unfold State.receivePanelFault
  dsimp only
  split
  · exact (stored.enterRecovery hp _).finish
  · exact (stored.enterRecovery hp _).finish
  · exact (stored.enterRecovery hp _).finish
  · exact stored
  · exact stored
  · exact stored

theorem receive (m : RxMessage) : Within F s (t.receive p m) := by
  cases m with
  | list modes => exact h.receiveList hp.toStarts modes
  | ack e v => exact h.receiveAck hp.toStarts e v
  | nak => exact h.receiveNak hp
  | panelFault code => exact h.receivePanelFault hp code

theorem probeExpired : Within F s (t.probeExpired p) := by
  have expired := h.modLc hp.self fun lc => { lc with answerDeadline := none }
  unfold State.probeExpired
  dsimp only
  split
  · exact (expired.modLc hp.self _).sendMessage hp.self _ _
  · exact (expired.enterOff hp _).finish

end

theorem raiseWindow (h : Within F s t) (hk : .sensing ∈ F) : Within F s t.raiseWindow := by
  unfold State.raiseWindow
  dsimp only
  split
  · split
    · exact h.requestArrives hk _
    · exact h
  · exact h

theorem startWindow (h : Within F s t) (hp : .pipe .p1 ∈ F) (hk : .sensing ∈ F) : Within F s t.startWindow := by
  have next : Within F s ((t.slotCompleted .p1 t.pipes.p1.fr.currentSlot).1.nextSlot .p1) :=
    (h.slotCompleted hp _).modFr hp _
  have held : Within F s ((t.slotCompleted .p1 t.pipes.p1.fr.currentSlot).1.nextSlot .p1).holdPanel :=
    next.sendMessage hp _ _
  exact finish (x := (_, _)) (held.raiseWindow hk)

end Within

end Sys2Proof.Machine
end

section
/-! PROOF. How each command ends: with the records whose fields it changed rewritten, once (R20, R99, log 5); and what the
events of one pipe leave of the other (R34 to R37). -/

namespace Sys2Proof.Machine

/-! The decisions of the request kinds (R10, R11). -/

namespace Within

variable {F : Set Part} {s t : State}

theorem finishTake (h : Within F s t) (r : RequestRecord) (status : Status) (results : List Word) :
    Within F s (t.finishTake r status results) := h.same rfl

theorem finishBadValue (h : Within F s t) (r : RequestRecord) (item : Nat) : Within F s (t.finishBadValue r item) :=
  h.same rfl

theorem park (h : Within F s t) (r : RequestRecord) : Within F s (t.park r) := h.same rfl

theorem decideSetOffers (hp : ∀ p, .pipe p ∈ F) (r : RequestRecord) : Within F s (s.decideSetOffers r) := by
  have h := refl F s
  unfold State.decideSetOffers
  split
  · exact h.finishTake r _ _
  next p _ =>
    split
    · exact h.finishBadValue r _
    next auto offers _ =>
      have stored := (h.finishTake r .done [BitVec.ofNat 32 offers.length]).modPb (hp p) fun b =>
        { b with offers := offers, autoAdmit := auto }
      dsimp only
      split
      · exact stored.beginAdmission (hp p)
      · exact stored

theorem decideNegotiate (hp : ∀ p, .pipe p ∈ F) (r : RequestRecord) : Within F s (s.decideNegotiate r) := by
  have h := refl F s
  unfold State.decideNegotiate
  split
  · exact h.finishTake r _ _
  next p _ =>
    split
    · exact h.finishTake r _ _
    · split
      · exact h.finishTake r _ _
      · exact ((h.park r).modPb (hp p) _).serveCompletions

theorem parkAdmit (h : Within F s t) {p : Pipe} (hp : .pipe p ∈ F) (r : RequestRecord) :
    Within F s (t.parkAdmit r p) := by
  have parked := (h.park r).modLc hp fun lc => { lc with parkedAdmit := some r.parked }
  unfold State.parkAdmit
  split
  · exact h.finishTake r _ _
  · dsimp only
    split
    · exact (parked.beginAdmission hp).serveCompletions
    · exact parked.serveCompletions

theorem decideAdmit (hp : ∀ p, .pipe p ∈ F) (r : RequestRecord) : Within F s (s.decideAdmit r) := by
  have h := refl F s
  unfold State.decideAdmit
  split
  · exact h.finishTake r _ _
  next p _ =>
    split
    · exact h.finishTake r _ _
    · exact h.finishTake r _ _
    all_goals exact h.parkAdmit (hp p) r

theorem restartPipe (h : Within F s t) {p : Pipe} (hp : Reaches F s p) : Within F s (t.restartPipe p) :=
  finish (x := (_, _)) (((h.enterOff hp _).abortParked hp).enterProbing hp.self)

theorem decideSetQuiet (hq : .quiet ∈ F) (r : RequestRecord) : Within F s (s.decideSetQuiet r) := by
  have h := refl F s
  unfold State.decideSetQuiet
  split
  · exact h.finishTake r _ _
  · exact h.finishTake r _ _
  · split
    · exact h.finishBadValue r _
    · exact (h.finishTake r _ _).quietSet hq _ _

theorem decideFrameNow (hp : ∀ p, Starts F s p) (r : RequestRecord) : Within F s (s.decideFrameNow r) := by
  have h := refl F s
  unfold State.decideFrameNow
  split
  · exact h.finishTake r _ _
  next p _ =>
    split
    · exact h.finishTake r _ _
    · split
      · exact h.finishTake r _ _
      · exact ((h.park r).modFr (hp p).self _).callPullIn (hp p) _

theorem decideUrgentBand (hp : ∀ p, Starts F s p) (r : RequestRecord) : Within F s (s.decideUrgentBand r) := by
  have h := refl F s
  unfold State.decideUrgentBand
  split
  · exact h.finishTake r _ _
  next p _ =>
    split
    · exact h.finishBadValue r _
    · split
      · exact h.finishTake r _ _
      · split
        · exact h.finishTake r _ _
        · exact ((h.park r).modFr (hp p).self _).callPullIn (hp p) _

theorem decideSetReference (hr : .reference ∈ F) (r : RequestRecord) : Within F s (s.decideSetReference r) := by
  have h := refl F s
  unfold State.decideSetReference
  split
  · exact h.finishBadValue r _
  · split
    · exact h.finishTake r _ _
    · exact (h.finishTake r _ _).modRef hr _

theorem decideSetSurface (hk : .sensing ∈ F) (r : RequestRecord) : Within F s (s.decideSetSurface r) := by
  have h := refl F s
  unfold State.decideSetSurface
  split
  · exact h.finishTake r _ _
  · split
    · exact h.finishBadValue r _
    · exact (h.finishTake r _ _).setGeometry hk _ _

theorem decideSurfaceEnable (hk : .sensing ∈ F) (r : RequestRecord) : Within F s (s.decideSurfaceEnable r) := by
  have h := refl F s
  unfold State.decideSurfaceEnable
  split
  · exact h.finishTake r _ _
  · split
    · exact h.finishBadValue r _
    · have done := h.finishTake r .done []
      dsimp only
      split
      · exact done.turnOn hk _
      · exact done.turnOff hk _
      · exact done
      · exact done

theorem decideSetBank (hk : .sensing ∈ F) (r : RequestRecord) : Within F s (s.decideSetBank r) := by
  have h := refl F s
  unfold State.decideSetBank
  split
  · exact h.finishBadValue r _
  · exact (h.finishTake r _ _).modBank hk _

theorem decideSetEventPins (r : RequestRecord) : Within F s (s.decideSetEventPins r) := by
  have h := refl F s
  unfold State.decideSetEventPins
  split
  · exact h.finishBadValue r _
  · exact h.same rfl

theorem decideClearFaults (hp : ∀ p, .pipe p ∈ F) (hk : .sensing ∈ F) (r : RequestRecord) :
    Within F s (s.decideClearFaults r) := by
  have h := refl F s
  unfold State.decideClearFaults
  split
  next p _ => exact (h.finishTake r _ _).modPipe (hp p) _
  next k _ _ => exact (h.finishTake r _ _).modSurf hk k _
  next => exact h.finishTake r _ _

/-! The reference, and reports. -/

theorem takeEdge (hr : .reference ∈ F) (hp : ∀ p, Starts F s p) : Within F s s.takeEdge := by
  have h := refl F s
  unfold State.takeEdge
  split
  · exact h.modRef hr _
  · exact ((h.modRef hr _).refPulse hr hp).finish

theorem generatePulse (hr : .reference ∈ F) (hp : ∀ p, Starts F s p) : Within F s s.generatePulse :=
  (((refl F s).modRef hr _).refPulse hr hp).finish

/-- A store in a report block is no store in the status area. -/
theorem block_far (b : Fin 16) {a : Nat} (high : a < 0x1800) (n : Nat) : ¬ inRange a (blockBase b) n := by
  unfold inRange blockBase
  omega

theorem endWrite (hk : .sensing ∈ F) : Within F s s.endWrite := by
  have h := refl F s
  unfold State.endWrite
  split
  next j _ =>
    have stored := h.store ((j.writePart j.size s.mem).writeWord (blockBase j.block) (s.rpw.nextSeq.get j.frame.surface))
      fun a _ high => by
        have out := block_far j.block high
        rw [Memory.read_writeWord_off _ _ _ _ (out 4)]
        exact j.read_writePart_off _ _ a (by unfold inRange blockBase; omega)
    have written : Within F s (State.noticeReport (State.modRpw { s with
        mem := (j.writePart j.size s.mem).writeWord (blockBase j.block) (s.rpw.nextSeq.get j.frame.surface)
        filledMarks := s.filledMarks.set j.block true } fun r =>
          { r with blocks := r.blocks.set j.block .filled, writer := none,
                   nextSeq := r.nextSeq.set j.frame.surface (nextSequence (s.rpw.nextSeq.get j.frame.surface)) })) :=
      stored.same rfl
    exact written.startWrite hk
  next => exact h

theorem claimArrival (h : Within F s t) (hk : .sensing ∈ F) (b : Fin 16) : Within F s (t.claimArrival b) :=
  (h.modRpw _).startWrite hk

theorem becomeReady (hr : .reference ∈ F) (hp : ∀ p, Starts F { s with ready := true } p) :
    Within F { s with ready := true } s.becomeReady := by
  have probing := ((refl F { s with ready := true }).enterProbing (hp .p0).self).enterProbing (hp .p1).self
  exact ((probing.modRef hr fun r => { r with genPhase := some (s.after r.fref) }).refPulse hr hp).finish

end Within

/-! Events. -/

theorem publish_of_seen {s v : State} (e : v.seen = s.seen) : publish s v = v := by
  simp only [State.seen, Prod.mk.injEq] at e
  obtain ⟨-, -, pipes, surfaces, bank, timer, ref, spans, shift⟩ := e
  have view : ∀ p, v.pipeView p = s.pipeView p := fun p => by
    simp only [State.pipeView, State.pipe, pipes, spans, shift]
  have surf : ∀ k, v.surfaceView k = s.surfaceView k := fun k => by
    simp only [State.surfaceView, State.surf, surfaces, timer]
  exact publish_of_same s v (view _) (view _) (surf _) (surf _) bank (by rw [ref])

/-- The event ends in what its rules make, published. -/
def EndsWithin (F : Set Part) (s t : State) : Prop := ∃ v, Within F s v ∧ t = publish s v

theorem EndsWithin.mono {F G : Set Part} {s t : State} (h : EndsWithin F s t) (sub : F ⊆ G) : EndsWithin G s t := by
  obtain ⟨v, within, e⟩ := h
  exact ⟨v, within.mono sub, e⟩

theorem EndsWithin.self (F : Set Part) (s : State) : EndsWithin F s s := ⟨s, Within.refl F s, (publish_self s).symm⟩

theorem endsWithin_event {F : Set Part} {s t : State} {guard : Bool} {f : State → State} (h : event guard f s = .next t)
    (within : Within F s (f s)) : EndsWithin F s t := by
  obtain rfl := next_inj h
  split
  · exact ⟨_, within, rfl⟩
  · exact .self F s

theorem endsWithin_decision {F : Set Part} {s t : State} {kind : Nat} {f : State → RequestRecord → State}
    (h : decision kind f s = .next t) (within : ∀ r, Within F s (f s r)) : EndsWithin F s t := by
  obtain rfl := next_inj h
  split
  next r _ => exact ⟨_, within r, rfl⟩
  next => exact .self F s

/-- A step that shows in no record's fields. -/
theorem endsWithin_seen {F : Set Part} {s t : State} (m : Memory) (e : t.seen = { s with mem := m }.seen)
    (hm : ∀ a, 0x1000 ≤ a → a < 0x1800 → m.read a = s.mem.read a) : EndsWithin F s t := by
  refine ⟨t, ((Within.refl F s).store m hm).same e, (publish_of_same s t ?_ ?_ ?_ ?_ ?_ ?_).symm⟩ <;>
    simp_all [State.seen, State.pipeView, State.surfaceView, State.pipe, State.surf]

/-- The events of one pipe: what its panel sends, its timers and its frames. -/
def OfPipe (c : Instr) (p : Pipe) : Prop :=
  (∃ bytes, c = .messageRejected p bytes) ∨ (∃ modes, c = .list p modes) ∨ (∃ a b, c = .ack p a b) ∨
    (∃ code, c = .panelFault p code) ∨
    c ∈ [.nak p, .messageSent p, .probeTimeout p, .selectTimeout p, .frameAckTimeout p, .quietIntervalExpiry p,
      .alignedStart p, .alignmentDeadline p, .burstStart p, .planPoint p, .trimStart p, .trimEnd p, .stretchLimit p,
      .silenceLimit p] ∨ (c = .windowStart ∧ p = .p1)

theorem endsWithin_ofPipe {c : Instr} {p : Pipe} {F : Set Part} {s t : State} (hc : OfPipe c p)
    (hp : Within.Reaches F s p) (h : exec c s = .next t) : EndsWithin F s t := by
  have start := Within.refl F s
  rcases hc with ⟨bytes, rfl⟩ | ⟨modes, rfl⟩ | ⟨e, v, rfl⟩ | ⟨code, rfl⟩ | hc | ⟨rfl, rfl⟩
  · obtain rfl := next_inj h
    split
    next m _ => exact ⟨_, start.receive hp m, rfl⟩
    next => exact .self F s
  · unfold exec execList at h
    exact endsWithin_event h (start.receiveList hp.toStarts modes)
  · unfold exec execAck at h
    exact endsWithin_event h (start.receiveAck hp.toStarts e v)
  · unfold exec execPanelFault at h
    exact endsWithin_event h (start.receivePanelFault hp code)
  · simp only [List.mem_cons, List.not_mem_nil, or_false] at hc
    rcases hc with rfl | rfl | rfl | rfl | rfl | rfl | rfl | rfl | rfl | rfl | rfl | rfl | rfl | rfl
    · unfold exec execNak at h
      exact endsWithin_event h (start.receiveNak hp)
    · unfold exec execMessageSent at h
      exact endsWithin_event h (start.endSending hp.toStarts)
    · unfold exec execProbeTimeout at h
      exact endsWithin_event h (start.probeExpired hp)
    · unfold exec execSelectTimeout at h
      exact endsWithin_event h (start.enterRecovery hp _).finish
    · unfold exec execFrameAckTimeout at h
      exact endsWithin_event h (start.missFrame hp).finish
    · unfold exec execQuietIntervalExpiry at h
      exact endsWithin_event h (start.enterProbing hp.self)
    · unfold exec execAlignedStart at h
      exact endsWithin_event h (start.startFrame hp.toStarts _).finish
    · unfold exec execAlignmentDeadline at h
      exact endsWithin_event h (start.startFrame hp.toStarts _).finish
    · unfold exec execBurstStart at h
      exact endsWithin_event h ((start.modFr hp.self _).releaseSlot hp.self _)
    · unfold exec execPlanPoint at h
      exact endsWithin_event h (start.startBlank hp.toStarts)
    · unfold exec execTrimStart at h
      exact endsWithin_event h (start.modPipe hp.self _)
    · unfold exec execTrimEnd at h
      exact endsWithin_event h (start.endTrim hp.toStarts)
    · unfold exec execStretchLimit at h
      exact endsWithin_event h (start.endFrame hp.toStarts).finish
    · unfold exec execSilenceLimit at h
      exact endsWithin_event h (start.loseSource hp.self id)
  · unfold exec execWindowStart at h
    exact endsWithin_event h (start.startWindow hp.self (hp.sensing rfl))

/-- The publication of an event touches a pipe's blocks only where its record's fields changed. -/
theorem publish_pipe_of_same {s v : State} {q : Pipe} (view : v.pipeView q = s.pipeView q) :
    (publish s v).pipe q = v.pipe q := by
  have other : ∀ {p q : Pipe} (t : State), p ≠ q → (publishPipe s p t).pipe q = t.pipe q := fun {p q} t ne => by
    unfold publishPipe
    split
    · rfl
    · cases p <;> cases q <;> first | rfl | exact absurd rfl ne
  have same : ∀ t : State, t.pipeView q = s.pipeView q → publishPipe s q t = t := fun t e => if_pos e
  simp only [publish, publishRef_pipe, publishBank_pipe, publishSurface_pipe]
  cases q with
  | p0 => rw [other _ (by decide), same v view]
  | p1 => rw [same _ (by simpa using view), other _ (by decide)]

/-- Settles O51: an event of one pipe touches the other only through a peer pulse (R86), and none of its record's
fields. -/
theorem pipesLeaveEachOtherAlone : Obligations.PipesLeaveEachOtherAlone := by
  unfold Obligations.PipesLeaveEachOtherAlone
  intro c p s t hc follows h
  have reaches : Within.Reaches {x | x ≠ .pipe (otherPipe p) ∧ x ≠ .quiet} s p :=
    { self := ⟨fun e => otherPipe_ne p (Part.pipe.inj e).symm, nofun⟩
      peer := fun peer => absurd (follows.symm.trans peer) (by decide)
      sensing := fun _ => ⟨nofun, nofun⟩ }
  obtain ⟨v, within, rfl⟩ := endsWithin_ofPipe hc reaches h
  have blocks : v.pipe (otherPipe p) = s.pipe (otherPipe p) := within.pipe _ fun inside => inside.1 rfl
  obtain ⟨spans, shift⟩ := within.quiet fun inside => inside.2 rfl
  have view : v.pipeView (otherPipe p) = s.pipeView (otherPipe p) := by
    simp only [State.pipeView, blocks, spans, shift]
  exact (publish_pipe_of_same view).trans blocks

end Sys2Proof.Machine
end

section
/-! PROOF. A record's version counts the events that change its fields, and every record shows its block (R20, R99, R100,
R147, R149, R162). -/

namespace Sys2Proof.Machine

/-! The command of every row. -/

/-- The command restarts a pipe (R34). -/
def State.restarts (s : State) (c : Instr) (p : Pipe) : Prop :=
  c = .pipeRestart ∧ ∃ r, s.takes 0x04 r ∧ r.targetsPipe p

/-- The command delivers a scan of a surface (R140). -/
def State.delivers (s : State) (c : Instr) (k : Surface) : Prop :=
  (∃ nodes, c = .scanCompletion nodes) ∧ s.bank.mode = .scanning ∧ s.bank.scanEnd = s.time ∧
    ∃ r, s.bank.granted = some r ∧ r.surface = k

/-- How a command ends: published, and the record rewritten in any case that a restart or a delivered scan rewrites (log 5). -/
inductive Published (c : Instr) (s : State) : State → Prop where
  | event (v : State) (within : Within Set.univ s v) (no_restart : ∀ p, ¬ s.restarts c p)
      (no_delivery : ∀ k, ¬ s.delivers c k) : Published c s (publish s v)
  | restart (v : State) (p : Pipe) (within : Within Set.univ s v) (restarts : s.restarts c p) :
      Published c s ((publish s v).pipeRewritten s p)
  | delivery (v : State) (k : Surface) (within : Within Set.univ s v) (delivers : s.delivers c k) :
      Published c s ((publish s v).surfaceRewritten s k)

theorem Published.of_endsWithin {c : Instr} {s t : State} (h : EndsWithin Set.univ s t) (hr : c ≠ .pipeRestart)
    (hd : ∀ nodes, c ≠ .scanCompletion nodes) : Published c s t := by
  obtain ⟨v, within, rfl⟩ := h
  exact .event v within (fun _ restarts => hr restarts.1) fun _ delivers =>
    delivers.1.elim fun nodes e => hd nodes e

theorem starts_univ (s : State) (p : Pipe) : Within.Starts Set.univ s p := ⟨trivial, fun _ => trivial⟩

theorem reaches_univ (s : State) (p : Pipe) : Within.Reaches Set.univ s p := ⟨starts_univ s p, fun _ => trivial⟩

/-- A word stored outside the status area leaves it alone. -/
theorem State.storeWord_far (s : State) {x : Nat} (out : x + 4 ≤ 0x1000 ∨ 0x1800 ≤ x) (w : Word) (b : Nat)
    (low : 0x1000 ≤ b) (high : b < 0x1800) : (s.mem.writeWord x w).read b = s.mem.read b :=
  Memory.read_writeWord_off _ _ _ _ (by omega)

/-- A claim return (R167). -/
theorem within_claim {F : Set Part} (hk : .sensing ∈ F) (s : State) (b : Fin 16) :
    Within F s ((s.unclaimed b).claimArrival b) := by
  refine Within.claimArrival ?_ hk b
  exact ((Within.refl F s).store _ (s.storeWord_far (x := blockBase b) (by unfold blockBase; omega) 0)).same rfl

/-- A host write moves none of the blocks but by a claim return. -/
theorem HostWritten.endsWithin {s t : State} {a : Nat} {v : Word} (h : HostWritten s a v t)
    (alive : ¬ (portTarget (alignWord a) = .control ∧ v.getLsbD 0 = true)) :
    EndsWithin ∅ s t ∨ ∃ b, t = publish s ((s.unclaimed b).claimArrival b) := by
  cases h with
  | discarded => exact .inl (.self _ s)
  | notices => exact .inl (endsWithin_seen s.mem rfl fun _ _ _ => rfl)
  | enables => exact .inl (endsWithin_seen s.mem rfl fun _ _ _ => rfl)
  | resets target bit => exact absurd ⟨target, bit⟩ alive
  | free _ low high => exact .inl (endsWithin_seen _ rfl (s.storeWord_far (by omega) _))
  | cell c o _ _ inside _ => exact .inl (endsWithin_seen _ rfl (s.storeWord_far (by unfold cellBase; omega) _))
  | submits c _ _ _ => exact .inl (endsWithin_seen _ rfl (s.storeWord_far (by unfold cellBase; omega) _))
  | returns b _ _ => exact .inr ⟨b, rfl⟩

theorem endsWithin_completionWrite {F : Set Part} {s t : State} (h : execCompletionWrite s = .next t) :
    EndsWithin F s t := by
  unfold execCompletionWrite at h
  split at h
  next c since _ =>
    obtain rfl := next_inj h
    refine endsWithin_seen ((c.writeBody s.mem).writeWord (cellBase c.cell) 0) ?_ fun a low high => ?_
    · unfold State.endCompletion
      rw [State.serveCompletions_eq]
      rfl
    · have base := cellBase_le c.cell
      rw [Memory.read_writeWord_off _ _ _ _ (by omega)]
      exact c.read_words_off _ _ (fun _ => id) a (by unfold inRange; omega)
  · obtain rfl := next_inj h
    exact .self F s
  · obtain rfl := next_inj h
    exact .self F s

theorem endsWithin_requestTake {F : Set Part} {s t : State} (h : execRequestTake s = .next t) : EndsWithin F s t := by
  obtain rfl := next_inj h
  split
  · cases queue : s.rqi.intake with
    | nil =>
      unfold State.take
      rw [queue]
      exact .self F s
    | cons cell rest =>
      obtain ⟨e, -, he⟩ := State.take_spec queue
      rw [he]
      exact endsWithin_seen s.mem rfl fun _ _ _ => rfl
  · exact .self F s

theorem published_pipeRestart {s t : State} (h : execPipeRestart s = .next t) : Published .pipeRestart s t := by
  obtain rfl := next_inj h
  have no_delivery : ∀ k, ¬ s.delivers .pipeRestart k := fun _ delivers => nomatch delivers.1
  have none : (∀ p, ¬ s.restarts .pipeRestart p) → Published .pipeRestart s s := fun no_restart => by
    have published := Published.event s (Within.refl _ s) no_restart no_delivery
    rwa [publish_self] at published
  split
  next r taken =>
    have takes := State.taken_eq_some.1 taken
    have target : ∀ {r' : RequestRecord} {p : Pipe}, s.takes 0x04 r' → r'.targetsPipe p → r.pipeTarget = some p := by
      rintro r' p ⟨-, since', engine'⟩ targets
      obtain ⟨-, since, engine⟩ := takes
      rw [engine] at engine'
      obtain ⟨rfl, -⟩ := Engine.taking.inj engine'
      exact RequestRecord.pipeTarget_of targets
    unfold State.decidePipeRestart
    split
    next bad =>
      have published := Published.event (c := .pipeRestart) (s.finishTake r .badTarget [])
        ((Within.refl _ s).finishTake r _ _)
        (fun p ⟨_, r', taken', targets⟩ => nomatch bad.symm.trans (target taken' targets)) no_delivery
      rwa [publish_of_seen (s := s) (v := s.finishTake r .badTarget []) rfl] at published
    next p good =>
      refine .restart _ p (((Within.refl _ s).finishTake r _ _).restartPipe (reaches_univ s p)) ⟨rfl, r, takes, ?_⟩
      unfold RequestRecord.pipeTarget at good
      unfold RequestRecord.targetsPipe
      split at good
      next zero => obtain rfl := Option.some.inj good; exact zero
      next =>
        split at good
        next one => obtain rfl := Option.some.inj good; exact one
        next => exact nomatch good
  next none_taken => exact none fun p ⟨_, r, takes, _⟩ => nomatch none_taken.symm.trans (State.taken_eq_some.2 takes)

theorem published_scanCompletion {s t : State} {nodes : List Half} (h : execScanCompletion nodes s = .next t) :
    Published (.scanCompletion nodes) s t := by
  obtain rfl := next_inj h
  have no_restart : ∀ p, ¬ s.restarts (.scanCompletion nodes) p := fun _ restarts => nomatch restarts.1
  have none : (∀ k, ¬ s.delivers (.scanCompletion nodes) k) → Published (.scanCompletion nodes) s s := fun no_delivery => by
    have published := Published.event s (Within.refl _ s) no_restart no_delivery
    rwa [publish_self] at published
  split
  next due =>
    obtain ⟨mode, ends⟩ := of_decide_eq_true due
    unfold State.endScan
    split
    next r granted =>
      exact .delivery _ _ ((Within.refl Set.univ s).completeScan trivial r nodes) ⟨⟨nodes, rfl⟩, mode, ends, r, granted, rfl⟩
    next empty => exact none fun k ⟨_, _, _, r, granted, _⟩ => nomatch empty.symm.trans granted
  next early => exact none fun k ⟨_, mode, ends, _⟩ => early (decide_eq_true ⟨mode, ends⟩)

theorem exec_published {c : Instr} {s t : State} (alive : c.resets = false) (late : c ≠ .initialisationCompletion)
    (h : exec c s = .next t) : Published c s t := by
  have start := Within.refl Set.univ s
  have own : ∀ {p}, OfPipe c p → Published c s t := fun {p} hc =>
    .of_endsWithin (endsWithin_ofPipe hc (reaches_univ s p) h)
      (by rintro rfl; simp [OfPipe] at hc) (by rintro nodes rfl; simp [OfPipe] at hc)
  have port : ∀ {a v}, c.portWrite = some (a, v) → Published c s t := fun {a v} hw => by
    obtain rfl := next_inj ((exec_portWrite hw s).symm.trans h)
    have ends : EndsWithin Set.univ s (s.hostWrite a v) := by
      rcases (s.hostWrite_cases a v).endsWithin fun ⟨target, bit⟩ =>
          absurd (alive.symm.trans (Instr.resets_of_control hw target bit)) (by decide) with stored | ⟨b, returned⟩
      · exact stored.mono (Set.empty_subset _)
      · exact ⟨_, within_claim (Set.mem_univ _) s b, returned⟩
    exact .of_endsWithin ends (by rintro rfl; exact nomatch hw) (by rintro nodes rfl; exact nomatch hw)
  cases c with
  | powerOnReset => exact nomatch alive
  | initialisationCompletion => exact absurd rfl late
  | softReset value => exact port rfl
  | noticeWrite value => exact port rfl
  | noticeMaskWrite value => exact port rfl
  | registerWriteDiscarded address value => exact port rfl
  | hostWorkMemoryWrite address value => exact port rfl
  | cellCodeWordWrite cell value => exact port rfl
  | claimReturn block => exact port rfl
  | requestTake => exact .of_endsWithin (endsWithin_requestTake h) nofun nofun
  | completionWrite => exact .of_endsWithin (endsWithin_completionWrite h) nofun nofun
  | pipeRestart => exact published_pipeRestart h
  | scanCompletion nodes => exact published_scanCompletion h
  | setOffers => exact .of_endsWithin (endsWithin_decision h (.decideSetOffers fun _ => trivial)) nofun nofun
  | negotiate => exact .of_endsWithin (endsWithin_decision h (.decideNegotiate fun _ => trivial)) nofun nofun
  | admitPipe => exact .of_endsWithin (endsWithin_decision h (.decideAdmit fun _ => trivial)) nofun nofun
  | setQuiet => exact .of_endsWithin (endsWithin_decision h (.decideSetQuiet trivial)) nofun nofun
  | urgentBand => exact .of_endsWithin (endsWithin_decision h (.decideUrgentBand (starts_univ s))) nofun nofun
  | frameNow => exact .of_endsWithin (endsWithin_decision h (.decideFrameNow (starts_univ s))) nofun nofun
  | setReference => exact .of_endsWithin (endsWithin_decision h (.decideSetReference trivial)) nofun nofun
  | setSurface => exact .of_endsWithin (endsWithin_decision h (.decideSetSurface trivial)) nofun nofun
  | surfaceEnable => exact .of_endsWithin (endsWithin_decision h (.decideSurfaceEnable trivial)) nofun nofun
  | setBank => exact .of_endsWithin (endsWithin_decision h (.decideSetBank trivial)) nofun nofun
  | setEventPins => exact .of_endsWithin (endsWithin_decision h .decideSetEventPins) nofun nofun
  | clearFaults =>
    exact .of_endsWithin (endsWithin_decision h (.decideClearFaults (fun _ => trivial) trivial)) nofun nofun
  | messageRejected p bytes => exact own (p := p) (by simp [OfPipe])
  | list p modes => exact own (p := p) (by simp [OfPipe])
  | ack p e v => exact own (p := p) (by simp [OfPipe])
  | nak p => exact own (p := p) (by simp [OfPipe])
  | panelFault p code => exact own (p := p) (by simp [OfPipe])
  | messageSent p => exact own (p := p) (by simp [OfPipe])
  | probeTimeout p => exact own (p := p) (by simp [OfPipe])
  | selectTimeout p => exact own (p := p) (by simp [OfPipe])
  | frameAckTimeout p => exact own (p := p) (by simp [OfPipe])
  | quietIntervalExpiry p => exact own (p := p) (by simp [OfPipe])
  | alignedStart p => exact own (p := p) (by simp [OfPipe])
  | alignmentDeadline p => exact own (p := p) (by simp [OfPipe])
  | burstStart p => exact own (p := p) (by simp [OfPipe])
  | windowStart => exact own (p := .p1) (by simp [OfPipe])
  | planPoint p => exact own (p := p) (by simp [OfPipe])
  | trimStart p => exact own (p := p) (by simp [OfPipe])
  | trimEnd p => exact own (p := p) (by simp [OfPipe])
  | stretchLimit p => exact own (p := p) (by simp [OfPipe])
  | silenceLimit p => exact own (p := p) (by simp [OfPipe])
  | refsyncEdge =>
    unfold exec execRefsyncEdge at h
    exact .of_endsWithin (endsWithin_event h (.takeEdge trivial (starts_univ s))) nofun nofun
  | generatedPulse =>
    unfold exec execGeneratedPulse at h
    exact .of_endsWithin (endsWithin_event h (.generatePulse trivial (starts_univ s))) nofun nofun
  | presenceAbsent =>
    unfold exec execPresenceAbsent at h
    exact .of_endsWithin (endsWithin_event h (start.modRef trivial _)) nofun nofun
  | padTick =>
    unfold exec execPadTick at h
    exact .of_endsWithin (endsWithin_event h (start.tickPad trivial)) nofun nofun
  | retuneEnd =>
    unfold exec execRetuneEnd at h
    exact .of_endsWithin (endsWithin_event h (start.endRetune trivial)) nofun nofun
  | requestExpiry k =>
    unfold exec execRequestExpiry at h
    exact .of_endsWithin (endsWithin_event h ((start.modBank trivial _).loseRequest trivial k)) nofun nofun
  | writeCompletion =>
    unfold exec execWriteCompletion at h
    exact .of_endsWithin (endsWithin_event h (.endWrite trivial)) nofun nofun
  | pinPulseEnd pin =>
    unfold exec execPinPulseEnd at h
    exact .of_endsWithin (endsWithin_event h (start.same rfl)) nofun nofun

end Sys2Proof.Machine
end

section
/-! PROOF. The status records after a command (R20, R99, R100, R147, R149). -/

namespace Sys2Proof.Machine

/-! A record that is rewritten shows its block. -/

theorem Memory.readBytes_written (m : Memory) (a : Nat) {n : Nat} {bs : List Byte} (h : bs.length = n) :
    (m.writeBytes a bs).readBytes a n = bs := h ▸ Memory.readBytes_writeBytes m a bs

theorem State.rewritePipe_shows (s : State) (p : Pipe) :
    (s.rewritePipe p).mem.readBytes (pipeRecordBase p) 512 = (s.rewritePipe p).pipeRecord p :=
  Memory.readBytes_written _ _ (State.pipeRecord_length _ p)

theorem State.rewriteSurface_shows (s : State) (k : Surface) :
    (s.rewriteSurface k).mem.readBytes (surfaceRecordBase k) 128 = (s.rewriteSurface k).surfaceRecord k :=
  Memory.readBytes_written _ _ (State.surfaceRecord_length _ k)

theorem State.rewriteBank_shows (s : State) : s.rewriteBank.mem.readBytes bankRecordBase 64 = s.rewriteBank.bank.bytes :=
  Memory.readBytes_written _ _ (Bank.bytes_length _)

theorem State.rewriteRef_shows (s : State) : s.rewriteRef.mem.readBytes refRecordBase 64 = s.rewriteRef.ref.bytes :=
  Memory.readBytes_written _ _ (RefUnit.bytes_length _)

/-- The bytes of a record are those of the fields it shows and its version. -/
theorem State.pipeRecord_congr {s t : State} {p : Pipe} (view : t.pipeView p = s.pipeView p)
    (version : (t.pipe p).version = (s.pipe p).version) : t.pipeRecord p = s.pipeRecord p := by
  unfold State.pipeRecord
  rw [view, version]

theorem State.surfaceRecord_congr {s t : State} {k : Surface} (view : t.surfaceView k = s.surfaceView k)
    (version : (t.surf k).version = (s.surf k).version) : t.surfaceRecord k = s.surfaceRecord k := by
  unfold State.surfaceRecord
  rw [view, version]

/-! The records of `publish`, each rewritten where its fields changed. -/

section

variable {s v : State}

/-- What the other publications leave of a pipe's record. -/
theorem publish_pipe_bytes (p : Pipe) : ∃ t : State, t.mem.readBytes (pipeRecordBase p) 512 = v.mem.readBytes (pipeRecordBase p) 512 ∧
    t.pipeView p = v.pipeView p ∧ (t.pipe p).version = (v.pipe p).version ∧
    (publish s v).mem.readBytes (pipeRecordBase p) 512 = (publishPipe s p t).mem.readBytes (pipeRecordBase p) 512 ∧
    (publish s v).pipeView p = (publishPipe s p t).pipeView p ∧
    ((publish s v).pipe p).version = ((publishPipe s p t).pipe p).version := by
  have outer : (publish s v).mem.readBytes (pipeRecordBase p) 512 =
      (publishPipe s .p1 (publishPipe s .p0 v)).mem.readBytes (pipeRecordBase p) 512 := by
    unfold publish
    rw [publishRef_apart _ _ _ _ (by cases p <;> decide), publishBank_apart _ _ _ _ (by cases p <;> decide),
      publishSurface_apart _ _ _ _ _ (by cases p <;> decide), publishSurface_apart _ _ _ _ _ (by cases p <;> decide)]
  cases p with
  | p0 =>
    refine ⟨v, rfl, rfl, rfl, outer.trans (publishPipe_apart _ _ _ _ _ (by decide)), by simp, ?_⟩
    rw [publish_pipe_version, publishPipe_pipe_version]
    split <;> simp_all
  | p1 =>
    refine ⟨publishPipe s .p0 v, publishPipe_apart _ _ _ _ _ (by decide), by simp, ?_, outer, by simp, ?_⟩
    · rw [publishPipe_pipe_version, if_neg (fun h => nomatch h.1)]
    · rw [publish_pipe_version, publishPipe_pipe_version, publishPipe_pipe_version]
      split <;> simp_all

theorem publish_pipe_record (p : Pipe) : (publish s v).mem.readBytes (pipeRecordBase p) 512 =
    if v.pipeView p = s.pipeView p then v.mem.readBytes (pipeRecordBase p) 512 else (publish s v).pipeRecord p := by
  obtain ⟨t, bytes, view, version, bytes', view', version'⟩ := publish_pipe_bytes (s := s) (v := v) p
  rw [bytes', State.pipeRecord_congr view' version']
  unfold publishPipe
  rw [view]
  split
  · exact bytes
  · exact State.rewritePipe_shows t p

theorem publish_surface_bytes (k : Surface) : ∃ t : State,
    t.mem.readBytes (surfaceRecordBase k) 128 = v.mem.readBytes (surfaceRecordBase k) 128 ∧
    t.surfaceView k = v.surfaceView k ∧ (t.surf k).version = (v.surf k).version ∧
    (publish s v).mem.readBytes (surfaceRecordBase k) 128 =
      (publishSurface s k t).mem.readBytes (surfaceRecordBase k) 128 ∧
    (publish s v).surfaceView k = (publishSurface s k t).surfaceView k ∧
    ((publish s v).surf k).version = ((publishSurface s k t).surf k).version := by
  have inner : (publishPipe s .p1 (publishPipe s .p0 v)).mem.readBytes (surfaceRecordBase k) 128 =
      v.mem.readBytes (surfaceRecordBase k) 128 := by
    rw [publishPipe_apart _ _ _ _ _ (by cases k <;> decide), publishPipe_apart _ _ _ _ _ (by cases k <;> decide)]
  have outer : (publish s v).mem.readBytes (surfaceRecordBase k) 128 =
      (publishSurface s .s1 (publishSurface s .s0 (publishPipe s .p1 (publishPipe s .p0 v)))).mem.readBytes
        (surfaceRecordBase k) 128 := by
    unfold publish
    rw [publishRef_apart _ _ _ _ (by cases k <;> decide), publishBank_apart _ _ _ _ (by cases k <;> decide)]
  cases k with
  | s0 =>
    refine ⟨publishPipe s .p1 (publishPipe s .p0 v), inner, by simp, by simp,
      outer.trans (publishSurface_apart _ _ _ _ _ (by decide)), by simp, ?_⟩
    rw [publish_surf_version, publishSurface_surf_version]
    split <;> simp_all
  | s1 =>
    refine ⟨publishSurface s .s0 (publishPipe s .p1 (publishPipe s .p0 v)),
      (publishSurface_apart _ _ _ _ _ (by decide)).trans inner, by simp, ?_, outer, by simp, ?_⟩
    · rw [publishSurface_surf_version, if_neg (fun h => nomatch h.1)]
      simp
    · rw [publish_surf_version, publishSurface_surf_version, publishSurface_surf_version]
      split <;> simp_all

theorem publish_surface_record (k : Surface) : (publish s v).mem.readBytes (surfaceRecordBase k) 128 =
    if v.surfaceView k = s.surfaceView k then v.mem.readBytes (surfaceRecordBase k) 128
    else (publish s v).surfaceRecord k := by
  obtain ⟨t, bytes, view, version, bytes', view', version'⟩ := publish_surface_bytes (s := s) (v := v) k
  rw [bytes', State.surfaceRecord_congr view' version']
  unfold publishSurface
  rw [view]
  split
  · exact bytes
  · exact State.rewriteSurface_shows t k

theorem publish_bank_record : (publish s v).mem.readBytes bankRecordBase 64 =
    if v.bank = s.bank then v.mem.readBytes bankRecordBase 64 else (publish s v).bank.bytes := by
  have inner : (publishSurface s .s1 (publishSurface s .s0 (publishPipe s .p1 (publishPipe s .p0 v)))).mem.readBytes
      bankRecordBase 64 = v.mem.readBytes bankRecordBase 64 := by
    rw [publishSurface_apart _ _ _ _ _ (by decide), publishSurface_apart _ _ _ _ _ (by decide),
      publishPipe_apart _ _ _ _ _ (by decide), publishPipe_apart _ _ _ _ _ (by decide)]
  unfold publish
  rw [publishRef_apart _ _ _ _ (by decide), publishRef_bank, ← inner]
  unfold publishBank
  simp only [publishSurface_bank, publishPipe_bank]
  split
  · rfl
  · exact State.rewriteBank_shows _

theorem publish_ref_record : (publish s v).mem.readBytes refRecordBase 64 =
    if v.ref.mirrored = s.ref.mirrored then v.mem.readBytes refRecordBase 64 else (publish s v).ref.bytes := by
  have inner : (publishBank s (publishSurface s .s1 (publishSurface s .s0 (publishPipe s .p1
      (publishPipe s .p0 v))))).mem.readBytes refRecordBase 64 = v.mem.readBytes refRecordBase 64 := by
    rw [publishBank_apart _ _ _ _ (by decide), publishSurface_apart _ _ _ _ _ (by decide),
      publishSurface_apart _ _ _ _ _ (by decide), publishPipe_apart _ _ _ _ _ (by decide),
      publishPipe_apart _ _ _ _ _ (by decide)]
  unfold publish
  rw [← inner]
  unfold publishRef
  simp only [publishBank_ref, publishSurface_ref, publishPipe_ref]
  split
  · rfl
  · exact State.rewriteRef_shows _

end

/-! A record as a command leaves it. -/

/-- A record is left alone with its version, or rewritten with the next version; `shows` is what a rewritten record
reads, `forced` a rewriting though the fields end as they began. -/
def RecordStep (same forced : Prop) (before after : Word) (bytes bytes' shows : List Byte) : Prop :=
  (same → ¬ forced → after = before ∧ bytes' = bytes) ∧ (¬ same ∨ forced → after = before + 1 ∧ bytes' = shows)

/-- All the records as a command takes `s` to `t`. -/
structure RecordsStep (c : Instr) (s t : State) : Prop where
  pipes    : ∀ p, RecordStep (s.pipeView p = t.pipeView p) (s.restarts c p) (s.pipe p).version (t.pipe p).version
    (s.mem.readBytes (pipeRecordBase p) 512) (t.mem.readBytes (pipeRecordBase p) 512) (t.pipeRecord p)
  surfaces : ∀ k, RecordStep (s.surfaceView k = t.surfaceView k) (s.delivers c k) (s.surf k).version (t.surf k).version
    (s.mem.readBytes (surfaceRecordBase k) 128) (t.mem.readBytes (surfaceRecordBase k) 128) (t.surfaceRecord k)
  bank     : RecordStep ({ s.bank with version := 0 } = { t.bank with version := 0 }) False s.bank.version t.bank.version
    (s.mem.readBytes bankRecordBase 64) (t.mem.readBytes bankRecordBase 64) t.bank.bytes
  ref      : RecordStep (s.ref.mirrored = t.ref.mirrored) False s.ref.version t.ref.version
    (s.mem.readBytes refRecordBase 64) (t.mem.readBytes refRecordBase 64) t.ref.bytes

theorem RecordStep.of_ite {same forced : Prop} [Decidable same] {before after : Word} {bytes bytes' shows : List Byte}
    (free : ¬ forced) (version : after = if same then before else before + 1)
    (record : bytes' = if same then bytes else shows) : RecordStep same forced before after bytes bytes' shows := by
  refine ⟨fun h _ => ?_, fun h => ?_⟩
  · rw [if_pos h] at version record
    exact ⟨version, record⟩
  · have changed : ¬ same := h.resolve_right free
    rw [if_neg changed] at version record
    exact ⟨version, record⟩

/-- What `Within` says of a record: its bytes are as they were. -/
theorem Within.record {F : Set Part} {s v : State} (h : Within F s v) {a n : Nat} (low : 0x1000 ≤ a)
    (high : a + n ≤ 0x1800) : v.mem.readBytes a n = s.mem.readBytes a n :=
  Memory.readBytes_congr fun x _ _ => h.area x (by omega) (by omega)

theorem Within.bank_eq {F : Set Part} {s v : State} (h : Within F s v) :
    v.bank = s.bank ↔ { s.bank with version := 0 } = { v.bank with version := 0 } := by
  obtain ⟨-, -, version, -⟩ := h.versions
  refine ⟨fun e => by rw [e], fun e => ?_⟩
  generalize v.bank = b at e version
  generalize s.bank = a at e version
  cases a
  cases b
  simp_all

section

variable {c : Instr} {s v : State} (within : Within Set.univ s v)

include within

theorem publish_pipe_step (p : Pipe) (free : ¬ s.restarts c p) :
    RecordStep (s.pipeView p = (publish s v).pipeView p) (s.restarts c p) (s.pipe p).version
      ((publish s v).pipe p).version (s.mem.readBytes (pipeRecordBase p) 512)
      ((publish s v).mem.readBytes (pipeRecordBase p) 512) ((publish s v).pipeRecord p) := by
  refine .of_ite free ?_ ?_
  · rw [publish_pipe_version, publish_pipeView, within.versions.1]
    simp only [eq_comm]
  · rw [publish_pipe_record, publish_pipeView, within.record (by cases p <;> decide) (by cases p <;> decide)]
    simp only [eq_comm (a := s.pipeView p)]

theorem publish_surface_step (k : Surface) (free : ¬ s.delivers c k) :
    RecordStep (s.surfaceView k = (publish s v).surfaceView k) (s.delivers c k) (s.surf k).version
      ((publish s v).surf k).version (s.mem.readBytes (surfaceRecordBase k) 128)
      ((publish s v).mem.readBytes (surfaceRecordBase k) 128) ((publish s v).surfaceRecord k) := by
  refine .of_ite free ?_ ?_
  · rw [publish_surf_version, publish_surfaceView, within.versions.2.1]
    simp only [eq_comm]
  · rw [publish_surface_record, publish_surfaceView, within.record (by cases k <;> decide) (by cases k <;> decide)]
    simp only [eq_comm (a := s.surfaceView k)]

theorem publish_bank_step :
    RecordStep ({ s.bank with version := 0 } = { (publish s v).bank with version := 0 }) False s.bank.version
      (publish s v).bank.version (s.mem.readBytes bankRecordBase 64) ((publish s v).mem.readBytes bankRecordBase 64)
      (publish s v).bank.bytes := by
  have fields : { (publish s v).bank with version := 0 } = { v.bank with version := 0 } := by
    rw [publish_bank]
    split <;> rfl
  rw [fields]
  refine .of_ite id ?_ ?_
  · simp only [publish_bank, ← within.bank_eq, within.versions.2.2.1, apply_ite Bank.version]
  · rw [publish_bank_record, within.record (by decide) (by decide)]
    simp only [← within.bank_eq]

theorem publish_ref_step :
    RecordStep (s.ref.mirrored = (publish s v).ref.mirrored) False s.ref.version (publish s v).ref.version
      (s.mem.readBytes refRecordBase 64) ((publish s v).mem.readBytes refRecordBase 64) (publish s v).ref.bytes := by
  refine .of_ite id ?_ ?_
  · rw [publish_ref_version, publish_ref_mirrored, within.versions.2.2.2]
    simp only [eq_comm (a := s.ref.mirrored)]
  · rw [publish_ref_record, publish_ref_mirrored, within.record (by decide) (by decide)]
    simp only [eq_comm (a := s.ref.mirrored)]

end

theorem State.restarts_unique {s : State} {c : Instr} {p q : Pipe} (hp : s.restarts c p) (hq : s.restarts c q) : q = p := by
  obtain ⟨-, r, ⟨-, since, engine⟩, target⟩ := hp
  obtain ⟨-, r', ⟨-, since', engine'⟩, target'⟩ := hq
  obtain ⟨rfl, -⟩ := Engine.taking.inj (engine.symm.trans engine')
  have := target.symm.trans target'
  cases p <;> cases q <;> first | rfl | exact absurd this (by decide)

theorem State.delivers_unique {s : State} {c : Instr} {k f : Surface} (hk : s.delivers c k) (hf : s.delivers c f) :
    f = k := by
  obtain ⟨-, -, -, r, granted, rfl⟩ := hk
  obtain ⟨-, -, -, r', granted', rfl⟩ := hf
  obtain rfl := Option.some.inj (granted.symm.trans granted')
  rfl

theorem State.rewritePipe_apart (s : State) (p : Pipe) {b n : Nat}
    (h : b + n ≤ pipeRecordBase p ∨ pipeRecordBase p + 512 ≤ b) :
    (s.rewritePipe p).mem.readBytes b n = s.mem.readBytes b n :=
  Memory.readBytes_congr fun a _ _ => s.rewritePipe_read p a fun inside => by unfold inRange at inside; omega

theorem State.rewriteSurface_apart (s : State) (k : Surface) {b n : Nat}
    (h : b + n ≤ surfaceRecordBase k ∨ surfaceRecordBase k + 128 ≤ b) :
    (s.rewriteSurface k).mem.readBytes b n = s.mem.readBytes b n :=
  Memory.readBytes_congr fun a _ _ => s.rewriteSurface_read k a fun inside => by unfold inRange at inside; omega

/-- The records of a published event that restarts no pipe and delivers no scan. -/
theorem publish_step {c : Instr} {s v : State} (within : Within Set.univ s v) (no_restart : ∀ p, ¬ s.restarts c p)
    (no_delivery : ∀ k, ¬ s.delivers c k) : RecordsStep c s (publish s v) where
  pipes p := publish_pipe_step within p (no_restart p)
  surfaces k := publish_surface_step within k (no_delivery k)
  bank := publish_bank_step within
  ref := publish_ref_step within

/-- A record that is rewritten in any case: by `publish` where its fields changed, else by itself. -/
theorem pipeRewritten_self {c : Instr} {s v : State} (within : Within Set.univ s v) {p : Pipe} (hp : s.restarts c p) :
    RecordStep (s.pipeView p = ((publish s v).pipeRewritten s p).pipeView p) (s.restarts c p) (s.pipe p).version
      (((publish s v).pipeRewritten s p).pipe p).version (s.mem.readBytes (pipeRecordBase p) 512)
      (((publish s v).pipeRewritten s p).mem.readBytes (pipeRecordBase p) 512)
      (((publish s v).pipeRewritten s p).pipeRecord p) := by
  refine ⟨fun _ free => absurd hp free, fun _ => ?_⟩
  have raised := publish_pipe_version s v p
  rw [within.versions.1] at raised
  unfold State.pipeRewritten
  split
  next kept => exact ⟨by rw [State.rewritePipe_pipe_version, if_pos rfl, kept], State.rewritePipe_shows _ p⟩
  next rewritten =>
    have changed : ¬ v.pipeView p = s.pipeView p := fun same => rewritten (raised.trans (if_pos same))
    exact ⟨raised.trans (if_neg changed), by rw [publish_pipe_record, if_neg changed]⟩

theorem surfaceRewritten_self {c : Instr} {s v : State} (within : Within Set.univ s v) {k : Surface}
    (hk : s.delivers c k) :
    RecordStep (s.surfaceView k = ((publish s v).surfaceRewritten s k).surfaceView k) (s.delivers c k)
      (s.surf k).version (((publish s v).surfaceRewritten s k).surf k).version
      (s.mem.readBytes (surfaceRecordBase k) 128)
      (((publish s v).surfaceRewritten s k).mem.readBytes (surfaceRecordBase k) 128)
      (((publish s v).surfaceRewritten s k).surfaceRecord k) := by
  refine ⟨fun _ free => absurd hk free, fun _ => ?_⟩
  have raised := publish_surf_version s v k
  rw [within.versions.2.1] at raised
  unfold State.surfaceRewritten
  split
  next kept => exact ⟨by rw [State.rewriteSurface_surf_version, if_pos rfl, kept], State.rewriteSurface_shows _ k⟩
  next rewritten =>
    have changed : ¬ v.surfaceView k = s.surfaceView k := fun same => rewritten (raised.trans (if_pos same))
    exact ⟨raised.trans (if_neg changed), by rw [publish_surface_record, if_neg changed]⟩

/-- A restart rewrites its pipe's record in any case, and no other record but as `publish` does. -/
theorem pipeRewritten_step {c : Instr} {s v : State} (within : Within Set.univ s v) {p : Pipe} (hp : s.restarts c p) :
    RecordsStep c s ((publish s v).pipeRewritten s p) := by
  have no_delivery : ∀ k, ¬ s.delivers c k := fun k hk => (hp.1 ▸ hk.1).elim fun _ e => nomatch e
  have self := pipeRewritten_self within hp
  by_cases kept : ((publish s v).pipe p).version = (s.pipe p).version
  · have e : (publish s v).pipeRewritten s p = (publish s v).rewritePipe p := if_pos kept
    rw [e] at self ⊢
    refine ⟨fun q => ?_, fun k => ?_, ?_, ?_⟩
    · by_cases same : q = p
      · exact same ▸ self
      · have version : (((publish s v).rewritePipe p).pipe q).version = ((publish s v).pipe q).version := by
          rw [State.rewritePipe_pipe_version, if_neg same]
        rw [State.rewritePipe_pipeView, State.pipeRecord_congr (State.rewritePipe_pipeView _ p q) version, version,
          State.rewritePipe_apart _ _ (by cases p <;> cases q <;> first | exact absurd rfl same | decide)]
        exact publish_pipe_step within q fun hq => same (State.restarts_unique hp hq)
    · rw [State.rewritePipe_surfaceView, State.surfaceRecord_congr (State.rewritePipe_surfaceView _ p k) rfl,
        State.rewritePipe_surf, State.rewritePipe_apart _ _ (by cases p <;> cases k <;> decide)]
      exact publish_surface_step within k (no_delivery k)
    · rw [State.rewritePipe_bank, State.rewritePipe_apart _ _ (by cases p <;> decide)]
      exact publish_bank_step within
    · rw [State.rewritePipe_ref, State.rewritePipe_apart _ _ (by cases p <;> decide)]
      exact publish_ref_step within
  · have e : (publish s v).pipeRewritten s p = publish s v := if_neg kept
    rw [e] at self ⊢
    refine ⟨fun q => ?_, fun k => publish_surface_step within k (no_delivery k), publish_bank_step within,
      publish_ref_step within⟩
    by_cases same : q = p
    · exact same ▸ self
    · exact publish_pipe_step within q fun hq => same (State.restarts_unique hp hq)

/-- A delivered scan rewrites its surface's record in any case, and no other record but as `publish` does. -/
theorem surfaceRewritten_step {c : Instr} {s v : State} (within : Within Set.univ s v) {k : Surface}
    (hk : s.delivers c k) : RecordsStep c s ((publish s v).surfaceRewritten s k) := by
  have no_restart : ∀ p, ¬ s.restarts c p := fun p hp => (hp.1 ▸ hk.1).elim fun _ e => nomatch e
  have self := surfaceRewritten_self within hk
  by_cases kept : ((publish s v).surf k).version = (s.surf k).version
  · have e : (publish s v).surfaceRewritten s k = (publish s v).rewriteSurface k := if_pos kept
    rw [e] at self ⊢
    refine ⟨fun p => ?_, fun f => ?_, ?_, ?_⟩
    · rw [State.rewriteSurface_pipeView, State.pipeRecord_congr (State.rewriteSurface_pipeView _ k p) rfl,
        State.rewriteSurface_pipe, State.rewriteSurface_apart _ _ (by cases k <;> cases p <;> decide)]
      exact publish_pipe_step within p (no_restart p)
    · by_cases same : f = k
      · exact same ▸ self
      · have version : (((publish s v).rewriteSurface k).surf f).version = ((publish s v).surf f).version := by
          rw [State.rewriteSurface_surf_version, if_neg same]
        rw [State.rewriteSurface_surfaceView, State.surfaceRecord_congr (State.rewriteSurface_surfaceView _ k f) version,
          version, State.rewriteSurface_apart _ _ (by cases k <;> cases f <;> first | exact absurd rfl same | decide)]
        exact publish_surface_step within f fun hf => same (State.delivers_unique hk hf)
    · rw [State.rewriteSurface_bank, State.rewriteSurface_apart _ _ (by cases k <;> decide)]
      exact publish_bank_step within
    · rw [State.rewriteSurface_ref, State.rewriteSurface_apart _ _ (by cases k <;> decide)]
      exact publish_ref_step within
  · have e : (publish s v).surfaceRewritten s k = publish s v := if_neg kept
    rw [e] at self ⊢
    refine ⟨fun p => publish_pipe_step within p (no_restart p), fun f => ?_, publish_bank_step within,
      publish_ref_step within⟩
    by_cases same : f = k
    · exact same ▸ self
    · exact publish_surface_step within f fun hf => same (State.delivers_unique hk hf)

theorem Published.recordsStep {c : Instr} {s t : State} (h : Published c s t) : RecordsStep c s t := by
  cases h with
  | event v within no_restart no_delivery => exact publish_step within no_restart no_delivery
  | restart v p within restarts => exact pipeRewritten_step within restarts
  | delivery v k within delivers => exact surfaceRewritten_step within delivers

/-- Settles O58: each record is left alone with its version, or rewritten with the next one. -/
theorem recordVersionsCountChanges : Obligations.RecordVersionsCountChanges := by
  unfold Obligations.RecordVersionsCountChanges
  intro c s t alive late h
  obtain ⟨pipes, surfaces, bank, ref⟩ := (exec_published alive late h).recordsStep
  exact ⟨pipes, surfaces, fun same => bank.1 same id, fun changed => bank.2 (.inl changed),
    fun same => ref.1 same id, fun changed => ref.2 (.inl changed)⟩

/-! Every record shows its block, once READY. -/

theorem State.mirrored_iff (s : State) : s.mirrored ↔ (s.ready = true → s.Shown) :=
  ⟨fun h ready => by
    obtain ⟨pipes, surfaces, bank, ref⟩ := h ready
    exact ⟨pipes, surfaces, bank, ref⟩, fun h ready => ⟨(h ready).pipes, (h ready).surfaces, (h ready).bank, (h ready).ref⟩⟩

/-- A record left alone, or rewritten, shows its block where it did before. -/
theorem RecordStep.shows {same forced : Prop} {before after : Word} {bytes bytes' shown shows : List Byte}
    (h : RecordStep same forced before after bytes bytes' shows) (shown_before : bytes = shown)
    (congr : same → after = before → shows = shown) : bytes' = shows := by
  by_cases rewritten : ¬ same ∨ forced
  · exact (h.2 rewritten).2
  · obtain ⟨kept, free⟩ := not_or.1 rewritten
    obtain ⟨version, record⟩ := h.1 (not_not.1 kept) free
    rw [record, shown_before, congr (not_not.1 kept) version]

/-- Equal bank fields and versions are equal banks. -/
theorem Bank.eq_of_fields {a b : Bank} (fields : { a with version := 0 } = { b with version := 0 })
    (version : b.version = a.version) : b = a := by
  cases a
  cases b
  simp_all

theorem RecordsStep.shown {c : Instr} {s t : State} (h : RecordsStep c s t) (before : s.Shown) : t.Shown where
  pipes p := (h.pipes p).shows (before.pipes p) fun same version => State.pipeRecord_congr same.symm version
  surfaces k := (h.surfaces k).shows (before.surfaces k) fun same version => State.surfaceRecord_congr same.symm version
  bank := h.bank.shows before.bank fun same version => by rw [Bank.eq_of_fields same version]
  ref := h.ref.shows before.ref fun same version => RefUnit.bytes_congr same.symm version

theorem Published.ready {c : Instr} {s t : State} (h : Published c s t) : t.ready = s.ready := by
  have bare : ∀ {a b : State}, a.bare = b.bare → a.ready = b.ready := fun {a b} e =>
    show a.bare.ready = b.bare.ready from congrArg State.ready e
  cases h with
  | event v within => exact (bare (publish_bare s v)).trans within.ready
  | restart v p within =>
    exact (bare ((State.pipeRewritten_bare _ s p).trans (publish_bare s v))).trans within.ready
  | delivery v k within =>
    exact (bare ((State.surfaceRewritten_bare _ s k).trans (publish_bare s v))).trans within.ready

theorem State.softReset_ready (s : State) : s.softReset.ready = false := by
  unfold State.softReset
  rw [State.rebuildBlocks_eq]
  rfl

theorem exec_mirrored {c : Instr} {s t : State} (hs : s.mirrored) (h : exec c s = .next t) : t.mirrored := by
  rw [State.mirrored_iff] at hs ⊢
  intro up
  cases alive : c.resets with
  | true =>
    unfold Instr.resets at alive
    split at alive
    · obtain rfl := next_inj h
      exact nomatch up
    · split at alive
      next a v port =>
        obtain ⟨target, bit⟩ := Bool.and_eq_true_iff.1 alive
        have target := of_decide_eq_true target
        obtain rfl := next_inj ((exec_portWrite port s).symm.trans h)
        simp only [State.hostWrite, target, bit, if_true, State.softReset_ready] at up
        exact nomatch up
      · exact nomatch alive
  | false =>
    by_cases late : c = .initialisationCompletion
    · subst late
      obtain rfl := next_inj h
      split at up
      next ready => rw [if_pos ready]; exact hs ready
      next down =>
        rw [if_neg down]
        have within := Within.becomeReady (F := Set.univ) (s := s.initialised) trivial fun p => starts_univ _ p
        obtain ⟨pipes, surfaces, bank, ref⟩ := s.initialised_shown
        refine publish_shown within.versions (fun p => ?_) (fun k => ?_) ?_ ?_
        · rw [within.record (by cases p <;> decide) (by cases p <;> decide)]; exact pipes p
        · rw [within.record (by cases k <;> decide) (by cases k <;> decide)]; exact surfaces k
        · rw [within.record (by decide) (by decide)]; exact bank
        · rw [within.record (by decide) (by decide)]; exact ref
    · have published := exec_published alive late h
      exact published.recordsStep.shown (hs (published.ready ▸ up))

theorem State.passTime_mirrored {s : State} (hs : s.mirrored) : s.passTime.mirrored := by
  obtain ⟨n, u, work, up, n', m, he, -, read⟩ := s.passTime_spec
  rw [State.mirrored_iff] at hs ⊢
  intro ready
  have before : s.ready = true := by
    rw [he] at ready
    rw [work.frame] at ready
    exact ready
  obtain rfl := up before
  have area : ∀ {a k : Nat}, 0x1000 ≤ a → a + k ≤ 0x2000 → m.readBytes a k = s.mem.readBytes a k := fun low high =>
    Memory.readBytes_congr fun x _ _ => read x
      (fun y _ _ => by have := cellBase_le y.cell; unfold inRange; omega)
      (fun j _ => by unfold inRange blockBase; omega)
  rw [he]
  obtain ⟨pipes, surfaces, bank, ref⟩ := hs before
  refine ⟨fun p => ?_, fun k => ?_, ?_, ?_⟩
  · exact (area (by cases p <;> decide) (by cases p <;> decide)).trans (pipes p)
  · exact (area (by cases k <;> decide) (by cases k <;> decide)).trans (surfaces k)
  · exact (area (by decide) (by decide)).trans bank
  · exact (area (by decide) (by decide)).trans ref

/-- A step runs a command, or one TU passes. -/
theorem step_exec {s t : State} (h : step s = .next t) :
    (∃ c pending n, exec c { s with pending := pending, free := n } = .next t) ∨
      ∃ n, t = { s with free := n }.passTime := by
  by_cases hp : s.pending = []
  · rw [step_nil hp] at h
    rcases s.tick_cases with ⟨c, -, n, he⟩ | ⟨-, n, he⟩
    · exact .inl ⟨c, s.pending, n, he.symm.trans h⟩
    · exact .inr ⟨n, next_inj (h.symm.trans he)⟩
  · obtain ⟨c, rest, hc⟩ := List.exists_cons_of_ne_nil hp
    rw [step_cons hc] at h
    exact .inl ⟨c, rest, s.free, h⟩

/-- Settles O57: a command leaves each record alone or rewrites it, and nothing else stores in the status area. -/
theorem stepsKeepRecordsMirrored : Obligations.StepsKeepRecordsMirrored := by
  unfold Obligations.StepsKeepRecordsMirrored
  intro s t safe h
  obtain ⟨-, -, -, -, -, -, -, mirrored⟩ := safe
  rcases step_exec h with ⟨c, pending, n, he⟩ | ⟨n, rfl⟩
  · exact exec_mirrored (s := { s with pending := pending, free := n }) mirrored he
  · exact State.passTime_mirrored (s := { s with free := n }) mirrored

end Sys2Proof.Machine
end

section
/-! PROOF. Link stops and the entries to RECOVERY, OFF and PROBING (R21, R24, R33 to R37). -/

namespace Sys2Proof.Machine

/-! The end of a surface's use of the bank (R145, R146). -/

/-- An aborted scan of a surface leaves the bank PARKED, or retuning to the other surface for its waiting request. -/
theorem State.freeBank_other (s : State) (k : Surface) (parked : s.bank.surface = k) (own : s.bank.waiting.get k = none)
    (surface : ∀ r, s.bank.waiting.get (otherSurface k) = some r → r.surface = otherSurface k) :
    s.freeBank = { s with bank :=
      match s.bank.waiting.get (otherSurface k) with
      | none => s.bank
      | some r =>
        { s.bank with
          mode := .retuning, surface := otherSurface k, granted := some r, retuneEnd := tuAfter s.time 1600,
          waiting := s.bank.waiting.set (otherSurface k) none,
          grants := s.bank.grants.set (otherSurface k) (s.bank.grants.get (otherSurface k) + 1),
          grantTime := s.bank.grantTime.set (otherSurface k) (some s.time),
          lastGranted := some (otherSurface k) } } := by
  have next : s.bank.nextWaiting = s.bank.waiting.get (otherSurface k) := by
    unfold Bank.nextWaiting
    cases k with
    | s0 =>
      rw [show s.bank.waiting.s0 = none from own]
      cases e : s.bank.waiting.s1 <;> exact e.symm
    | s1 =>
      rw [show s.bank.waiting.s1 = none from own]
      cases e : s.bank.waiting.s0 <;> exact e.symm
  unfold State.freeBank State.serveWaiting
  rw [next]
  cases e : s.bank.waiting.get (otherSurface k) with
  | none => rfl
  | some r =>
    have other : ¬ s.bank.surface = otherSurface k := by
      rw [parked]
      cases k <;> decide
    have apart : ¬ (s.unwait (otherSurface k)).bank.surface = otherSurface k := other
    dsimp only
    rw [surface r e]
    unfold State.grant
    rw [surface r e, if_neg apart]
    rfl

/-- A surface's use of the bank ends: nothing but the bank changes. -/
theorem State.endBankUse_eq {s : State} (safe : s.bankSafe) (k : Surface) :
    s.endBankUse k = { s with bank := s.bank.without k s.time } := by
  obtain ⟨-, -, -, own⟩ := safe
  have free : (s.bank.waiting.set k none).get k = none := PerSurface.get_set ..
  have kept : (s.bank.waiting.set k none).get (otherSurface k) = s.bank.waiting.get (otherSurface k) :=
    PerSurface.get_set_other ..
  unfold State.endBankUse Bank.without
  dsimp only
  by_cases retuning : s.bank.mode = .retuning ∧ s.bank.surface = k
  · have same : (s.unwait k).bank.mode = .retuning ∧ (s.unwait k).bank.surface = k := retuning
    have idle : ((s.unwait k).modBank fun b => { b with granted := none }).bank.scansFor k = false :=
      decide_eq_false fun scans => nomatch retuning.1.symm.trans scans.1
    rw [if_pos same, if_pos retuning]
    unfold State.abortScan
    rw [idle]
    rfl
  · have same : ¬ ((s.unwait k).bank.mode = .retuning ∧ (s.unwait k).bank.surface = k) := retuning
    rw [if_neg same, if_neg retuning]
    unfold State.abortScan
    by_cases scanning : s.bank.mode = .scanning ∧ s.bank.surface = k
    · have scans : (s.unwait k).bank.scansFor k = true := decide_eq_true scanning
      have freed := State.freeBank_other ((s.unwait k).modBank fun b => { b with mode := .parked, granted := none }) k
        scanning.2 free fun r hr => own _ r (kept.symm.trans hr)
      rw [if_pos scans, if_pos scanning, freed]
      have waits : ((s.unwait k).modBank fun b => { b with mode := .parked, granted := none }).bank.waiting.get
          (otherSurface k) = s.bank.waiting.get (otherSurface k) := kept
      rw [waits, kept]
      cases s.bank.waiting.get (otherSurface k) <;> rfl
    · have scans : ¬ (s.unwait k).bank.scansFor k = true := fun scans => scanning (of_decide_eq_true scans)
      rw [if_neg scans, if_neg scanning]
      rfl

/-! Link stops (R35 to R37, R97). -/

theorem abortedOf_eq (r : Option Parked) : abortedOf r = handing r .aborted [] := by cases r <;> rfl

theorem bandsAborted_eq (bs : List Band) :
    (bs.map fun b => b.request.complete .aborted []) = bs.flatMap fun b => handing (some b.request) .aborted [] := by
  induction bs with
  | nil => rfl
  | cons b bs ih => rw [List.map_cons, ih]; rfl

theorem State.abortParked_hands (s : State) (p : Pipe) : (s.abortParked p).2 = (s.pipe p).aborts := by
  unfold State.abortParked PipeState.aborts
  simp only [abortedOf_eq, bandsAborted_eq]

/-- Two updates of a pipe are one. -/
theorem State.modPipe_modPipe (s : State) (p : Pipe) (f g : PipeState → PipeState) :
    (s.modPipe p f).modPipe p g = s.modPipe p fun x => g (f x) := by cases p <;> rfl

theorem State.modPipe_eq (s : State) (p : Pipe) (f : PipeState → PipeState) :
    s.modPipe p f = s.withPipe p (f (s.pipe p)) := rfl

theorem State.withPipe_withPipe (s : State) (p : Pipe) (x y : PipeState) :
    (s.withPipe p x).withPipe p y = s.withPipe p y := by cases p <;> rfl

/-- One pipe's blocks after a link stop, before NOTICE and the bank. -/
theorem State.stopBlocks_eq (s : State) (p : Pipe) :
    (((s.abortParked p).1.modLc p fun lc => { lc.stopTimer with outstanding := none }).modPb p fun b =>
      b.stopped).modFr p (fun r => r.stopped) =
      s.withPipe p { (s.pipe p).stopped with lock := (s.pipe p).lock } := by
  simp only [State.abortParked, State.modLc, State.modPb, State.modFr, State.modPipe_modPipe]
  rfl

theorem State.linkStop_eq {s : State} (safe : s.bankSafe) (p : Pipe) :
    (s.linkStop p).1 = { s.linkStopped p with notice := { s.notice with
      pipe := s.notice.pipe || decide (LockState.notLocking ≠ (s.pipe p).lock.state) } } := by
  have blocks := congrArg (fun t : State => t.setLock p fun l => l.dropHistory .notLocking) (s.stopBlocks_eq p)
  dsimp only at blocks
  rw [State.setLock_eq (s.withPipe p _), State.withPipe_pipe, State.withPipe_withPipe] at blocks
  unfold State.linkStop
  dsimp only
  generalize State.setLock _ p _ = t at blocks ⊢
  have still : t.bankSafe := blocks ▸ safe
  cases p with
  | p0 => exact blocks
  | p1 =>
    dsimp only
    rw [State.endBankUse_eq still, blocks]
    rfl

theorem State.leaveLink_eq {s : State} {p : Pipe} (safe : (s.pipe p).lc.state.stops = true → s.bankSafe) :
    (s.leaveLink p).1 = { s.leaving p with notice := { s.notice with
      pipe := s.notice.pipe ||
        ((s.pipe p).lc.state.stops && decide (LockState.notLocking ≠ (s.pipe p).lock.state)) } } := by
  unfold State.leaveLink State.leaving
  by_cases stops : (s.pipe p).lc.state = .selecting ∨ (s.pipe p).lc.state = .active
  · have e : (s.pipe p).lc.state.stops = true := decide_eq_true stops
    rw [if_pos stops, if_pos e, State.linkStop_eq (safe e), e, Bool.true_and]
  · have e : (s.pipe p).lc.state.stops = false := decide_eq_false stops
    rw [if_neg stops, e, Bool.false_and, Bool.or_false]
    rfl

theorem State.leaveLink_hands (s : State) (p : Pipe) : (s.leaveLink p).2 = (s.pipe p).leaves := by
  unfold State.leaveLink PipeState.leaves
  by_cases stops : (s.pipe p).lc.state = .selecting ∨ (s.pipe p).lc.state = .active
  · have e : (s.pipe p).lc.state.stops = true := decide_eq_true stops
    rw [if_pos stops, if_pos e]
    exact s.abortParked_hands p
  · have e : ¬ (s.pipe p).lc.state.stops = true := fun h => stops (of_decide_eq_true h)
    rw [if_neg stops, if_neg e]
    dsimp only
    rw [abortedOf_eq]

end Sys2Proof.Machine
end

section
/-! PROOF. What NOTICE says of an event in parts, and the entries to RECOVERY and OFF (R20, R24, R33, R101, R177). -/

namespace Sys2Proof.Machine

/-! NOTICE after an event in parts. -/

/-- Flags that only rise from `a` to `b` to `c` have changed on the way exactly when they have changed in all. -/
theorem PipeFaults.changed_iff {a b c : PipeFaults} (first : ∀ f, a.get f = true → b.get f = true)
    (second : ∀ f, b.get f = true → c.get f = true) : (b ≠ a ∨ c ≠ b) ↔ c ≠ a := by
  have ext : ∀ {x y : PipeFaults}, (∀ f, x.get f = true → y.get f = true) → (∀ f, y.get f = true → x.get f = true) →
      x = y := fun {x y} up down => by
    have flag := fun f => Bool.eq_iff_iff.2 ⟨up f, down f⟩
    cases x
    cases y
    exact (PipeFaults.mk.injEq ..).mpr
      ⟨flag .ackMissed, flag .recovery, flag .selectFailed, flag .lockLost, flag .refLost, flag .lateBand⟩
  constructor
  · rintro changed rfl
    have e := ext first second
    exact changed.elim (fun h => h e.symm) fun h => h e
  · intro changed
    by_contra same
    simp only [not_or, not_not] at same
    exact changed (same.2.trans same.1)

/-- In two parts of an event, where each link and each lock changes its state in one part at most. -/
theorem Notes.seq {s t u : State} (first : Notes s t) (second : Notes t u)
    (links : ∀ p, (t.pipe p).lc.state = (s.pipe p).lc.state ∨ (u.pipe p).lc.state = (t.pipe p).lc.state)
    (locks : ∀ p, (t.pipe p).lock.state = (s.pipe p).lock.state ∨ (u.pipe p).lock.state = (t.pipe p).lock.state)
    (kept : s.faultsKept t) (kept' : t.faultsKept u) : Notes s u := by
  refine ⟨second.cell.trans first.cell, second.report.trans first.report, ?_, ?_,
    fun k => (second.surfaces k).trans (first.surfaces k)⟩
  · rw [second.pipe, first.pipe, or_assoc, ← exists_or]
    refine or_congr_right (exists_congr fun p => ?_)
    rcases links p with link | link <;> rcases locks p with lock | lock <;> rw [link, lock] <;> simp [or_comm]
  · rw [second.fault, first.fault, or_assoc, ← exists_or]
    exact or_congr_right (exists_congr fun p => PipeFaults.changed_iff (kept.1 p) (kept'.1 p))

theorem State.setLink_notes (s : State) (p : Pipe) (x : LinkState) : Notes s (s.setLink p x) := by
  have he := s.setLink_eq p x
  have pipe : (s.setLink p x).pipe p = { s.pipe p with lc := { (s.pipe p).lc with state := x } } := by
    rw [he]
    exact s.withPipe_pipe p _
  refine .one p (fun q h => by rw [he]; exact s.withPipe_other _ h) (fun k => by rw [he]; rfl) (by rw [he]) (by rw [he])
    ?_ ?_
  · rw [pipe, he]
    simp [@eq_comm _ x]
  · rw [pipe, he]
    simp

theorem State.raisePipeFault_notes (s : State) (p : Pipe) (f : PipeFault) : Notes s (s.raisePipeFault p f) := by
  have he := s.raisePipeFault_eq p f
  have pipe : (s.raisePipeFault p f).pipe p = { s.pipe p with faults := (s.pipe p).faults.put f } := by
    rw [he]
    exact s.withPipe_pipe p _
  refine .one p (fun q h => by rw [he]; exact s.withPipe_other _ h) (fun k => by rw [he]; rfl) (by rw [he]) (by rw [he])
    ?_ ?_
  · rw [pipe, he]
    simp
  · rw [pipe, he]
    simp only [PipeFaults.put_ne, Bool.or_eq_true, Bool.not_eq_true']

theorem State.raisePipeFault_states (s : State) (p : Pipe) (f : PipeFault) (q : Pipe) :
    ((s.raisePipeFault p f).pipe q).lc.state = (s.pipe q).lc.state ∧
      ((s.raisePipeFault p f).pipe q).lock.state = (s.pipe q).lock.state := by
  rw [State.raisePipeFault_eq]
  cases p <;> cases q <;> exact ⟨rfl, rfl⟩

/-- An update of link fields that NOTICE does not speak of. -/
theorem State.modLc_notes (s : State) (p : Pipe) (g : LinkCtl → LinkCtl) (h : (g (s.pipe p).lc).state = (s.pipe p).lc.state) :
    Notes s (s.modLc p g) := by
  refine .quiet rfl (fun q => ?_) fun _ => rfl
  by_cases hq : q = p
  · subst hq
    rw [State.modLc_pipe]
    exact ⟨h, rfl, rfl⟩
  · rw [show (s.modLc p g).pipe q = s.pipe q from s.withPipe_other _ hq]
    exact .refl _

theorem State.modLc_states (s : State) (p : Pipe) (g : LinkCtl → LinkCtl)
    (h : (g (s.pipe p).lc).state = (s.pipe p).lc.state) (q : Pipe) :
    ((s.modLc p g).pipe q).lc.state = (s.pipe q).lc.state ∧
      ((s.modLc p g).pipe q).lock.state = (s.pipe q).lock.state := by
  by_cases hq : q = p
  · subst hq
    rw [State.modLc_pipe]
    exact ⟨h, rfl⟩
  · rw [show (s.modLc p g).pipe q = s.pipe q from s.withPipe_other _ hq]
    exact ⟨rfl, rfl⟩

theorem State.modLc_kept (s : State) (p : Pipe) (g : LinkCtl → LinkCtl) : s.faultsKept (s.modLc p g) :=
  ⟨fun q f => by cases p <;> cases q <;> exact id, fun _ _ => id⟩

/-! One pipe and NOTICE. -/

/-- A state with one pipe's blocks and NOTICE replaced. -/
def State.moved (s : State) (p : Pipe) (x : PipeState) (n : Notices) : State := { s.withPipe p x with notice := n }

section

variable (s : State) (p : Pipe) (x : PipeState) (n : Notices)

theorem State.moved_self : { s with notice := n } = s.moved p (s.pipe p) n := by cases p <;> rfl

theorem State.moved_modLc (g : LinkCtl → LinkCtl) : (s.moved p x n).modLc p g = s.moved p { x with lc := g x.lc } n := by
  cases p <;> rfl

theorem State.moved_setLink (link : LinkState) : (s.moved p x n).setLink p link =
    s.moved p { x with lc := { x.lc with state := link } } { n with pipe := n.pipe || decide (x.lc.state ≠ link) } := by
  rw [State.setLink_eq]
  cases p <;> rfl

theorem State.moved_raise (f : PipeFault) : (s.moved p x n).raisePipeFault p f =
    s.moved p { x with faults := x.faults.put f } { n with fault := n.fault || !x.faults.get f } := by
  rw [State.raisePipeFault_eq]
  cases p <;> rfl

end

/-! Leaving a link state (R24, R33, R35). -/

theorem State.leaving_other (s : State) {p q : Pipe} (h : q ≠ p) : (s.leaving p).pipe q = s.pipe q := by
  unfold State.leaving
  split
  · cases p with
    | p0 => exact s.withPipe_other _ h
    | p1 => exact s.withPipe_other _ h
  · exact s.withPipe_other _ h

/-- The blocks of a pipe whose link leaves its state. -/
def PipeState.left (x : PipeState) : PipeState :=
  if x.lc.state.stops then x.stopped else { x with lc := { x.lc.stopTimer with parkedAdmit := none } }

theorem State.leaving_pipe (s : State) (p : Pipe) : (s.leaving p).pipe p = (s.pipe p).left := by
  unfold State.leaving PipeState.left
  split
  · cases p <;> rfl
  · exact s.withPipe_pipe p _

theorem PipeState.left_link (x : PipeState) : x.left.lc.state = x.lc.state := by unfold PipeState.left; split <;> rfl

theorem PipeState.left_lock (x : PipeState) :
    x.left.lock.state = if x.lc.state.stops then .notLocking else x.lock.state := by
  unfold PipeState.left; split <;> rfl

theorem PipeState.left_faults (x : PipeState) : x.left.faults = x.faults := by unfold PipeState.left; split <;> rfl

theorem State.leaving_surf_faults (s : State) (p : Pipe) (k : Surface) :
    ((s.leaving p).surf k).faults = (s.surf k).faults := by
  unfold State.leaving
  split
  · cases p <;> cases k <;> rfl
  · rfl

/-- What leaving a link state does not touch. -/
theorem State.leaving_kept (s : State) (p : Pipe) :
    (s.leaving p).rqi = s.rqi ∧ (s.leaving p).time = s.time ∧ (s.leaving p).mem = s.mem ∧
      (s.leaving p).notice = s.notice := by
  unfold State.leaving
  split
  · cases p <;> exact ⟨rfl, rfl, rfl, rfl⟩
  · exact ⟨rfl, rfl, rfl, rfl⟩

theorem State.leaving_notice (s : State) (p : Pipe) (n : Notices) :
    { s with notice := n }.leaving p = { s.leaving p with notice := n } := by
  unfold State.leaving
  split
  · rw [if_pos (by assumption)]
    cases p <;> rfl
  · rw [if_neg (by assumption)]
    rfl

theorem State.leaveLink_notes {s : State} {p : Pipe} (safe : (s.pipe p).lc.state.stops = true → s.bankSafe) :
    Notes s (s.leaveLink p).1 := by
  have he := State.leaveLink_eq safe
  have pipe : (s.leaveLink p).1.pipe p = (s.pipe p).left := by rw [he]; exact s.leaving_pipe p
  obtain ⟨-, -, -, notice⟩ := s.leaving_kept p
  refine .one p (fun q h => by rw [he]; exact s.leaving_other h) (fun k => by rw [he]; exact s.leaving_surf_faults p k)
    (by rw [he]) (by rw [he]) ?_ ?_
  · rw [pipe, PipeState.left_link, PipeState.left_lock, he]
    cases (s.pipe p).lc.state.stops <;> simp
  · rw [pipe, PipeState.left_faults, he]
    simp

/-- The entry to a link state out of another. -/
theorem State.enterLink_notes {s : State} {p : Pipe} (safe : (s.pipe p).lc.state.stops = true → s.bankSafe)
    (link : LinkState) : Notes s ((s.leaveLink p).1.setLink p link) := by
  refine (State.leaveLink_notes safe).seq (State.setLink_notes _ p _) (fun q => .inl ?_) (fun q => .inr ?_)
    (ordinary_leaveLink s p).faults ((Ordinary.refl _).setLink p _).faults
  · rw [State.leaveLink_eq safe]
    by_cases hq : q = p
    · subst hq
      exact (congrArg (·.lc.state) (s.leaving_pipe q)).trans (s.pipe q).left_link
    · exact congrArg (·.lc.state) (s.leaving_other hq)
  · rw [State.setLink_eq]
    cases p <;> cases q <;> rfl

/-! RECOVERY (R33). -/

theorem State.enterRecovery_fields {s : State} (safe : s.bankSafe) (p : Pipe) (why : StopReason) :
    (s.enterRecovery p why).1 = { s.recovering p why with notice := (s.enterRecovery p why).1.notice } := by
  have left := (State.leaveLink_eq (p := p) fun _ => safe).trans ((s.leaving p).moved_self p _)
  unfold State.enterRecovery State.recovering
  dsimp only
  rw [left, State.moved_setLink, State.moved_modLc, State.moved_raise, State.moved_raise]
  by_cases failed : why = .selectRefused ∨ why = .selectTimeout
  · rw [if_pos failed, if_pos failed]
    rfl
  · rw [if_neg failed, if_neg failed]
    rfl

theorem State.enterRecovery_notes {s : State} (safe : s.bankSafe) (p : Pipe) (why : StopReason) :
    Notes s (s.enterRecovery p why).1 := by
  have raised : ∀ {t : State} (f : PipeFault), Notes s t → s.faultsKept t → Notes s (t.raisePipeFault p f) :=
    fun {t} f notes kept => notes.seq (t.raisePipeFault_notes p f) (fun q => .inr (t.raisePipeFault_states p f q).1)
      (fun q => .inr (t.raisePipeFault_states p f q).2) kept ((Ordinary.refl t).raisePipeFault p f).faults
  have entered := State.enterLink_notes (p := p) (fun _ => safe) .recovery
  have keptEntered := ((ordinary_leaveLink s p).setLink p .recovery).faults
  have stored : ∀ g : LinkCtl → LinkCtl, (∀ lc, (g lc).state = lc.state) →
      Notes s (((s.leaveLink p).1.setLink p .recovery).modLc p g) := fun g hg =>
    entered.seq (State.modLc_notes _ p g (hg _)) (fun q => .inr (State.modLc_states _ p g (hg _) q).1)
      (fun q => .inr (State.modLc_states _ p g (hg _) q).2) keptEntered (State.modLc_kept _ p g)
  have keptStored : ∀ g : LinkCtl → LinkCtl, s.faultsKept (((s.leaveLink p).1.setLink p .recovery).modLc p g) := fun g =>
    State.faultsKept_trans keptEntered (State.modLc_kept _ p g)
  unfold State.enterRecovery
  dsimp only
  split
  · exact raised _ (raised _ (stored _ fun _ => rfl) (keptStored _))
      (State.faultsKept_trans (keptStored _) ((Ordinary.refl _).raisePipeFault p _).faults)
  · exact raised _ (stored _ fun _ => rfl) (keptStored _)

theorem State.recovering_kept (s : State) (p : Pipe) (why : StopReason) :
    (s.recovering p why).rqi = s.rqi ∧ (s.recovering p why).time = s.time ∧ (s.recovering p why).mem = s.mem ∧
      (s.recovering p why).notice = s.notice := s.leaving_kept p

theorem State.recovering_notice (s : State) (p : Pipe) (why : StopReason) (n : Notices) :
    { s with notice := n }.recovering p why = { s.recovering p why with notice := n } := by
  unfold State.recovering
  rw [State.leaving_notice]
  rfl

theorem faultsKept_of_steady {s t : State} (pipes : ∀ q, (t.pipe q).faults = (s.pipe q).faults)
    (surfaces : ∀ k, (t.surf k).faults = (s.surf k).faults) : s.faultsKept t :=
  ⟨fun q f => by rw [pipes]; exact id, fun k f => by rw [surfaces]; exact id⟩

/-- An event that enters RECOVERY, out of a state `t` that is `m` but for NOTICE. -/
theorem entersRecovery_of_publish {c : Instr} {s m t : State} {p : Pipe} {why : StopReason}
    (he : exec c s = .next (publish s (t.enterRecovery p why).finish)) (fields : t = { m with notice := t.notice })
    (before : m.notice = s.notice) (notes : Notes s t)
    (states : ∀ q, (t.pipe q).lc.state = (s.pipe q).lc.state ∧ (t.pipe q).lock.state = (s.pipe q).lock.state)
    (kept : s.faultsKept t) (versions : SameVersions s t) (safe : t.bankSafe) : EntersRecovery c s m p why := by
  have recovered : (t.enterRecovery p why).1 = (m.recovering p why).noted s := by
    refine Notes.eq_noted (notes.seq (State.enterRecovery_notes safe p why) (fun q => .inl (states q).1)
      (fun q => .inl (states q).2) kept (ordinary_enterRecovery t p why).faults) ?_
      ((m.recovering_kept p why).2.2.2.trans before)
    have h := State.enterRecovery_fields safe p why
    rw [show t.recovering p why = { m.recovering p why with notice := t.notice } by
      rw [← State.recovering_notice, ← fields]] at h
    exact h
  have hands : (t.enterRecovery p why).2 = (m.pipe p).leaves := by
    have pipe : t.pipe p = m.pipe p := by rw [fields]; rfl
    rw [← pipe]
    exact t.leaveLink_hands p
  obtain ⟨rqi, time, mem, -⟩ := m.recovering_kept p why
  obtain ⟨q, n, finished, handed⟩ := (t.enterRecovery p why).1.handOverGroups_spec (t.enterRecovery p why).2
  have within := ((Within.refl Set.univ t).enterRecovery (reaches_univ t p) why).finish
  have finished : (t.enterRecovery p why).finish = { (m.recovering p why).noted s with rqi := q, free := n } := by
    rw [← recovered]
    exact finished
  have handed : HandedOver m.rqi m.time (m.pipe p).leaves q := by
    rw [recovered, hands] at handed
    simpa only [State.noted, rqi, time] using handed
  refine ⟨q, handed, becomes_of_publish he (by rw [finished]; rfl) (fun a => by rw [finished]; rfl) ?_⟩
  exact versions.trans within.versions

end Sys2Proof.Machine
end

section
/-! PROOF. Refusals, misses and faults that stop a link, and the end of PROBING and RECOVERY (R21 to R33). -/

namespace Sys2Proof.Machine

/-! An event that publishes. -/

theorem event_of {guard : Bool} {s : State} (h : guard = true) (f : State → State) :
    event guard f s = .next (publish s (f s)) :=
  congrArg Host.Outcome.next (if_pos h)

theorem event_of_not {guard : Bool} {s : State} (h : ¬ guard = true) (f : State → State) : event guard f s = .next s :=
  congrArg Host.Outcome.next (if_neg h)

section

variable (s : State) (p : Pipe)

theorem exec_nak : exec (.nak p) s = .next (publish s (s.receiveNak p)) :=
  (show exec (.nak p) s = event true (fun t => t.receiveNak p) s from rfl).trans (event_of rfl _)

theorem exec_ack (e v : Byte) : exec (.ack p e v) s = .next (publish s (s.receiveAck p e v)) :=
  (show exec (.ack p e v) s = event true (fun t => t.receiveAck p e v) s from rfl).trans (event_of rfl _)

theorem exec_panelFault (code : Byte) :
    exec (.panelFault p code) s = .next (publish s (s.receivePanelFault p code)) :=
  (show exec (.panelFault p code) s = event true (fun t => t.receivePanelFault p code) s from rfl).trans
    (event_of rfl _)

theorem exec_list (modes : List ModeRecord) :
    exec (.list p modes) s = event (decide (modes.length ≤ maxListRecords)) (fun t => t.receiveList p modes) s := rfl

theorem exec_messageSent : exec (.messageSent p) s = event (s.sentNow p) (fun t => t.endSending p) s := rfl

theorem exec_probeTimeout : exec (.probeTimeout p) s = event (s.answerDue p .probing) (fun t => t.probeExpired p) s := rfl

theorem exec_selectTimeout :
    exec (.selectTimeout p) s = event (s.answerDue p .selecting) (fun t => (t.enterRecovery p .selectTimeout).finish) s := rfl

theorem exec_frameAckTimeout :
    exec (.frameAckTimeout p) s = event (s.answerDue p .active) (fun t => (t.missFrame p).finish) s := rfl

theorem exec_quietIntervalExpiry :
    exec (.quietIntervalExpiry p) s = event (s.quietDue p) (fun t => t.enterProbing p) s := rfl

end

/-- An event that leaves the state as it is. -/
theorem publish_idle {s t : State} (h : t = s) : (.next (publish s t) : Result State) = .next s := by rw [h, publish_self]

theorem Notes.refl (s : State) : Notes s s := .quiet rfl (fun _ => .refl _) fun _ => rfl

theorem State.answerDue_iff (s : State) (p : Pipe) (link : LinkState) : s.answerDue p link = true ↔
    (s.pipe p).lc.state = link ∧ (s.pipe p).lc.answerDeadline = some s.time := by
  unfold State.answerDue State.isNow
  rw [Bool.and_eq_true, decide_eq_true_eq, decide_eq_true_eq]

/-- An event that does nothing before it enters RECOVERY. -/
theorem entersRecovery_at_once {c : Instr} {s : State} {p : Pipe} {why : StopReason}
    (he : exec c s = .next (publish s (s.enterRecovery p why).finish)) (safe : s.bankSafe) :
    EntersRecovery c s s p why :=
  entersRecovery_of_publish he rfl rfl (.refl s) (fun _ => ⟨rfl, rfl⟩) s.faultsKept_refl (.refl s) safe

/-- Settles O27: a NAK and an expired answer timer in SELECTING enter RECOVERY. -/
theorem selectRefusedEntersRecovery : Obligations.SelectRefusedEntersRecovery := by
  unfold Obligations.SelectRefusedEntersRecovery
  intro s p safe lc
  refine ⟨fun selecting => ?_, fun selecting due => ?_, fun early => ?_⟩
  · have refused : s.receiveNak p = (s.enterRecovery p .selectRefused).finish := by
      unfold State.receiveNak
      rw [show (s.pipe p).lc.state = .selecting from selecting]
    refine entersRecovery_at_once ?_ safe
    rw [← refused]
    exact exec_nak s p
  · exact entersRecovery_at_once
      ((exec_selectTimeout s p).trans (event_of ((s.answerDue_iff p _).2 ⟨selecting, due⟩) _)) safe
  · refine (exec_selectTimeout s p).trans (event_of_not (fun due => ?_) _)
    obtain ⟨selecting, now⟩ := (s.answerDue_iff p _).1 due
    exact early.elim (fun h => h selecting) fun h => h now

/-! Misses (R29, R30). -/

/-- A pipe that has missed a FRAME (R29). -/
def PipeState.missed (x : PipeState) : PipeState :=
  { x with lc := { x.lc.stopTimer with outstanding := none, missedAcks := x.lc.missedAcks + 1 },
           faults := x.faults.plus [.ackMissed] }

/-- The state in which a miss is counted, before a link stop. -/
def State.missing (s : State) (p : Pipe) : State :=
  (s.modLc p fun lc => { lc.stopTimer with outstanding := none, missedAcks := lc.missedAcks + 1 }).raisePipeFault p .ackMissed

theorem State.missing_fields (s : State) (p : Pipe) :
    s.missing p = { s.withPipe p (s.pipe p).missed with notice := (s.missing p).notice } := by
  unfold State.missing
  rw [State.raisePipeFault_eq]
  cases p <;> rfl

theorem State.missing_pipe (s : State) (p : Pipe) : (s.missing p).pipe p = (s.pipe p).missed := by
  rw [State.missing_fields]
  exact s.withPipe_pipe p _

theorem State.missing_states (s : State) (p q : Pipe) : ((s.missing p).pipe q).lc.state = (s.pipe q).lc.state ∧
    ((s.missing p).pipe q).lock.state = (s.pipe q).lock.state := by
  rw [State.missing_fields]
  cases p <;> cases q <;> exact ⟨rfl, rfl⟩

theorem State.missing_notes (s : State) (p : Pipe) : Notes s (s.missing p) := by
  have counted := s.modLc_notes p (fun lc => { lc.stopTimer with outstanding := none, missedAcks := lc.missedAcks + 1 }) rfl
  exact counted.seq (State.raisePipeFault_notes _ p .ackMissed) (fun q => .inr (State.raisePipeFault_states _ p _ q).1)
    (fun q => .inr (State.raisePipeFault_states _ p _ q).2)
    (faultsKept_of_steady (fun q => by cases p <;> cases q <;> rfl) fun _ => rfl)
    ((Ordinary.refl _).raisePipeFault p _).faults

theorem State.missing_kept (s : State) (p : Pipe) : s.faultsKept (s.missing p) :=
  (((Ordinary.refl s).modLc p (fun lc => { lc.stopTimer with outstanding := none, missedAcks := lc.missedAcks + 1 })
    rfl).raisePipeFault p .ackMissed).faults

theorem State.missFrame_eq (s : State) (p : Pipe) : s.missFrame p =
    if 3 ≤ ((s.missing p).pipe p).lc.missedAcks then (s.missing p).enterRecovery p .ackMissed else (s.missing p, []) := rfl

theorem State.missing_versions (s : State) (p : Pipe) : SameVersions s (s.missing p) :=
  (((Within.refl Set.univ s).modLc trivial _).raisePipeFault trivial _).versions

/-- Settles O28: the third miss in a row stops the link. -/
theorem thirdMissEntersRecovery : Obligations.ThirdMissEntersRecovery := by
  unfold Obligations.ThirdMissEntersRecovery
  intro s p c safe x active event u
  have he : exec c s = .next (publish s (s.missFrame p).finish) := by
    rcases event with ⟨rfl, n, frame⟩ | ⟨rfl, due⟩
    · have missed : s.receiveNak p = (s.missFrame p).finish := by
        unfold State.receiveNak
        rw [show (s.pipe p).lc.state = .active from active, show (s.pipe p).lc.outstanding = some (.frame n) from frame]
      rw [← missed]
      exact exec_nak s p
    · exact (exec_frameAckTimeout s p).trans (event_of ((s.answerDue_iff p _).2 ⟨active, due⟩) _)
  have count : ((s.missing p).pipe p).lc.missedAcks = x.lc.missedAcks + 1 := by rw [State.missing_pipe]; rfl
  have fields := s.missing_fields p
  refine ⟨fun few => ?_, fun third => ?_⟩
  · have missed : s.missFrame p = (s.missing p, []) :=
      (s.missFrame_eq p).trans (if_neg (by rw [count]; omega))
    rw [missed] at he
    refine becomes_of_publish he ?_ (fun a => ?_) (s.missing_versions p)
    · exact congrArg State.bare ((s.missing_notes p).eq_noted fields rfl)
    · show (s.missing p).mem.read a = _
      rw [fields]
      rfl
  · have missed : s.missFrame p = (s.missing p).enterRecovery p .ackMissed :=
      (s.missFrame_eq p).trans (if_pos (by rw [count]; omega))
    rw [missed] at he
    exact entersRecovery_of_publish he fields rfl (s.missing_notes p) (s.missing_states p) (s.missing_kept p)
      (s.missing_versions p) (by rw [fields]; exact safe)

/-- Settles O29: the code is stored, and in HELD, SELECTING and ACTIVE the link stops. -/
theorem panelFaultStopsTheLink : Obligations.PanelFaultStopsTheLink := by
  unfold Obligations.PanelFaultStopsTheLink
  intro s p code safe x u
  have notes : Notes s u := s.modLc_notes p (fun lc => { lc with panelFault := code }) rfl
  have versions : SameVersions s u := s.withPipe_versions rfl
  refine ⟨fun stops => ?_, fun goesOn => ?_⟩
  · refine entersRecovery_of_publish (t := u) ?_ rfl rfl notes
      (fun q => by cases p <;> cases q <;> exact ⟨rfl, rfl⟩)
      (faultsKept_of_steady (fun q => by cases p <;> cases q <;> rfl) fun _ => rfl) versions safe
    have fault : s.receivePanelFault p code = (u.enterRecovery p .panelFault).finish := by
      unfold State.receivePanelFault
      rcases stops with held | selecting | active
      · rw [show (s.pipe p).lc.state = .held from held]; rfl
      · rw [show (s.pipe p).lc.state = .selecting from selecting]; rfl
      · rw [show (s.pipe p).lc.state = .active from active]; rfl
    rw [← fault]
    exact exec_panelFault s p code
  · have fault : s.receivePanelFault p code = u := by
      unfold State.receivePanelFault
      rcases goesOn with off | probing | recovery
      · rw [show (s.pipe p).lc.state = .off from off]; rfl
      · rw [show (s.pipe p).lc.state = .probing from probing]; rfl
      · rw [show (s.pipe p).lc.state = .recovery from recovery]; rfl
    refine becomes_of_publish (v := u) ?_ rfl (fun _ => rfl) versions
    rw [← fault]
    exact exec_panelFault s p code

/-! OFF (R24). -/

theorem State.enterOff_fields {s : State} {p : Pipe} (safe : (s.pipe p).lc.state.stops = true → s.bankSafe)
    (why : StopReason) : (s.enterOff p why).1 = { s.turningOff p why with notice := (s.enterOff p why).1.notice } := by
  have left := (State.leaveLink_eq safe).trans ((s.leaving p).moved_self p _)
  unfold State.enterOff State.turningOff
  dsimp only
  rw [left, State.moved_setLink, State.moved_modLc]
  rfl

theorem State.enterOff_notes {s : State} {p : Pipe} (safe : (s.pipe p).lc.state.stops = true → s.bankSafe)
    (why : StopReason) : Notes s (s.enterOff p why).1 := by
  unfold State.enterOff
  dsimp only
  exact (State.enterLink_notes safe .off).seq (State.modLc_notes _ p _ rfl)
    (fun q => .inr (State.modLc_states _ p _ rfl q).1) (fun q => .inr (State.modLc_states _ p _ rfl q).2)
    ((ordinary_leaveLink s p).setLink p .off).faults (State.modLc_kept _ p _)

theorem State.turningOff_kept (s : State) (p : Pipe) (why : StopReason) :
    (s.turningOff p why).rqi = s.rqi ∧ (s.turningOff p why).time = s.time ∧ (s.turningOff p why).mem = s.mem ∧
      (s.turningOff p why).notice = s.notice := s.leaving_kept p

/-! Timers (R19, R21, R23, R33). -/

/-- An unanswered PROBE at the limit turns the link off. -/
theorem turnsOff_of_probeExpired {s : State} {p : Pipe} (probing : (s.pipe p).lc.state = .probing)
    (due : (s.pipe p).lc.answerDeadline = some s.time) (last : 8 ≤ (s.pipe p).lc.probeCount) :
    ∃ q, HandedOver s.rqi s.time [handing (s.pipe p).lc.parkedAdmit .aborted []] q ∧
      Becomes (.probeTimeout p) s
        ({ s.turningOff p (if (s.pipe p).lc.malformedSeen then .badList else .noAnswer) with rqi := q }.noted s) := by
  generalize hw : (if (s.pipe p).lc.malformedSeen then StopReason.badList else .noAnswer) = why
  let t := s.modLc p fun lc => { lc with answerDeadline := none }
  have pipe : t.pipe p = { s.pipe p with lc := { (s.pipe p).lc with answerDeadline := none } } := s.modLc_pipe p _
  have idle : (s.pipe p).lc.state.stops = false := by rw [probing]; rfl
  have idle' : (t.pipe p).lc.state.stops = false := by rw [pipe]; exact idle
  have unsafe_not : (t.pipe p).lc.state.stops = true → t.bankSafe := fun h => nomatch idle'.symm.trans h
  have expired : s.probeExpired p = (t.enterOff p why).finish := by
    unfold State.probeExpired
    dsimp only
    rw [if_neg (by omega), hw]
  have off : t.turningOff p why = s.turningOff p why := by
    unfold State.turningOff State.leaving
    rw [if_neg (by rw [idle']; decide), if_neg (by rw [idle]; decide), pipe]
    cases p <;> rfl
  have turned : (t.enterOff p why).1 = (s.turningOff p why).noted s := by
    have fields := State.enterOff_fields unsafe_not why
    rw [off] at fields
    refine Notes.eq_noted ?_ fields (s.turningOff_kept p why).2.2.2
    refine (s.modLc_notes p _ rfl).seq (State.enterOff_notes unsafe_not why) (fun q => .inl ?_) (fun q => .inl ?_)
      (faultsKept_of_steady (fun q => by cases p <;> cases q <;> rfl) fun _ => rfl) (ordinary_enterOff t p why).faults
    · cases p <;> cases q <;> rfl
    · cases p <;> cases q <;> rfl
  have hands : (t.enterOff p why).2 = [handing (s.pipe p).lc.parkedAdmit .aborted []] := by
    refine (t.leaveLink_hands p).trans ?_
    unfold PipeState.leaves
    rw [if_neg (by rw [idle']; decide), pipe]
  obtain ⟨rqi, time, mem, -⟩ := s.turningOff_kept p why
  obtain ⟨q, n, finished, handed⟩ := (t.enterOff p why).1.handOverGroups_spec (t.enterOff p why).2
  have within : Within Set.univ s (t.enterOff p why).finish :=
    (((Within.refl Set.univ s).modLc (p := p) trivial _).enterOff (reaches_univ s p) why).finish
  have finished : (t.enterOff p why).finish = { (s.turningOff p why).noted s with rqi := q, free := n } := by
    rw [← turned]
    exact finished
  have handed : HandedOver s.rqi s.time [handing (s.pipe p).lc.parkedAdmit .aborted []] q := by
    rw [turned, hands] at handed
    simpa only [State.noted, rqi, time] using handed
  refine ⟨q, handed, becomes_of_publish (v := s.probeExpired p) ?_ ?_ (fun a => ?_) ?_⟩
  · exact (exec_probeTimeout s p).trans (event_of ((s.answerDue_iff p _).2 ⟨probing, due⟩) _)
  · rw [expired, finished]; rfl
  · rw [expired, finished]; rfl
  · rw [expired]; exact within.versions

/-- Settles O31: PROBING ends at the eighth PROBE, RECOVERY at its quiet interval's end. -/
theorem probingAndRecoveryEnd : Obligations.ProbingAndRecoveryEnd := by
  unfold Obligations.ProbingAndRecoveryEnd
  intro s p x
  refine ⟨fun probing due => ⟨fun few => ?_, turnsOff_of_probeExpired probing due⟩, fun recovery due => ?_⟩
  · have expired : s.probeExpired p = s.withPipe p { x with
        lc := { x.lc with answerDeadline := none, probeCount := x.lc.probeCount + 1 }.plus s.time .probe true } := by
      unfold State.probeExpired
      dsimp only
      rw [if_pos few, State.sendMessage_eq]
      simp only [State.modLc, State.modPipe_eq, State.withPipe_pipe, State.withPipe_withPipe]
      rfl
    refine becomes_of_publish (v := s.probeExpired p)
      ((exec_probeTimeout s p).trans (event_of ((s.answerDue_iff p _).2 ⟨probing, due⟩) _)) ?_ (fun a => ?_) ?_
    · rw [expired]
    · rw [expired]
    · rw [expired]; exact s.withPipe_versions rfl
  · have quiet : s.quietDue p = true := by
      unfold State.quietDue State.isNow
      rw [Bool.and_eq_true, decide_eq_true_eq, decide_eq_true_eq]
      exact ⟨recovery, due⟩
    have entered : s.enterProbing p = (s.withPipe p (x.probing s.time)).noted s := by
      have he := s.enterProbing_eq p
      have pipe : (s.enterProbing p).pipe p = x.probing s.time := by rw [he]; exact s.withPipe_pipe p _
      have link : (x.probing s.time).lc.state = .probing := LinkCtl.plus_state ..
      refine Notes.eq_noted (.one p (fun q h => by rw [he]; exact s.withPipe_other _ h) (fun k => by rw [he]; rfl)
        (by rw [he]) (by rw [he]) ?_ ?_) (by rw [he]) rfl
      · rw [pipe, link, he]
        simp [x, PipeState.probing, @eq_comm _ LinkState.probing]
      · rw [pipe, he]
        simp [x, PipeState.probing]
    refine becomes_of_publish (v := s.enterProbing p)
      ((exec_quietIntervalExpiry s p).trans (event_of quiet _)) ?_ (fun a => ?_) ?_
    · rw [entered]
    · rw [entered]
    · rw [entered]; exact s.withPipe_versions rfl

/-! Answers that match (R27, R29), and the end of a sending (R19). -/

/-- Settles O26: an ACK acts only where it echoes what is outstanding, a NAK only where something is. -/
theorem answersMatchTheOutstandingMessage : Obligations.AnswersMatchTheOutstandingMessage := by
  unfold Obligations.AnswersMatchTheOutstandingMessage
  intro s p t v x
  refine ⟨fun n active frame type value => ?_, fun notFrame notSelect => ?_, fun notSelecting notFrame => ?_⟩
  · have acked : s.receiveAck p t v =
        s.withPipe p { x with lc := { x.lc.stopTimer with outstanding := none, missedAcks := 0 } } := by
      unfold State.receiveAck
      rw [show (s.pipe p).lc.state = .active from active, show (s.pipe p).lc.outstanding = some (.frame n) from frame]
      exact if_pos ⟨type, value⟩
    refine becomes_of_publish (v := s.receiveAck p t v) (exec_ack s p t v) ?_ (fun a => ?_) ?_
    · rw [acked]
    · rw [acked]
    · rw [acked]; exact s.withPipe_versions rfl
  · refine (exec_ack s p t v).trans (publish_idle ?_)
    unfold State.receiveAck
    split
    next mode selecting select => exact if_neg fun ⟨type, value⟩ => notSelect ⟨selecting, type, value ▸ select⟩
    next number active frame => exact if_neg fun ⟨type, value⟩ => notFrame ⟨active, type, value ▸ frame⟩
    next => rfl
  · refine (exec_nak s p).trans (publish_idle ?_)
    unfold State.receiveNak
    split
    next selecting => exact absurd selecting notSelecting
    next number active frame => exact absurd ⟨active, number, frame⟩ notFrame
    next => rfl

/-- Settles O30: the sent message's timer starts, and the first waiting message begins. -/
theorem sentMessageStartsItsTimer : Obligations.SentMessageStartsItsTimer := by
  unfold Obligations.SentMessageStartsItsTimer
  intro s p x y sending ends timer lc
  have due : s.sentNow p = true := by
    unfold State.sentNow State.isNow
    rw [show (s.pipe p).lc.sending = some x from sending, Option.map_some, ends]
    exact decide_eq_true rfl
  have answer : x.message.answerTimer = timer := by
    unfold timer TxMessage.answerTimer
    cases x.message <;> rfl
  have sent : s.endSending p = s.withPipe p { y with lc := lc } := by
    unfold State.endSending
    rw [show (s.pipe p).lc.sending = some x from sending]
    dsimp only
    unfold State.sendWaiting
    simp only [State.modLc_pipe]
    cases waiting : (s.pipe p).lc.waiting with
    | nil =>
      rw [answer, State.modLc, State.modPipe_eq]
      simp only [lc, y, waiting]
      rfl
    | cons m rest =>
      rw [answer]
      simp only [State.beginSending, State.modLc, State.modPipe_eq, State.withPipe_pipe,
        State.withPipe_withPipe, TxMessage.sendTU_eq, lc, y, waiting]
      rfl
  refine becomes_of_publish (v := s.endSending p) ((exec_messageSent s p).trans (event_of due _)) ?_ (fun a => ?_) ?_
  · rw [sent]
  · rw [sent]
  · rw [sent]; exact s.withPipe_versions rfl

end Sys2Proof.Machine
end

section
/-! PROOF. Offers, admission and the restart of a pipe (R20 to R26, R34 to R40). -/

namespace Sys2Proof.Machine

/-! SET_OFFERS (R39, R40). -/

/-- Items that all pass are read one by one. -/
theorem checkItems_ok {α : Type} {item : Nat → Option α} {f : Nat → α} {n k : Nat}
    (h : ∀ j < n, item (k + j) = some (f (k + j))) : checkItems item n k = .ok ((List.range n).map fun j => f (k + j)) := by
  induction n generalizing k with
  | zero => rfl
  | succ n ih =>
    have shift : (fun j => f (k + 1 + j)) = (fun j => f (k + j)) ∘ Nat.succ := by
      funext j
      rw [Function.comp_apply, Nat.succ_eq_add_one, Nat.add_assoc, Nat.add_comm 1]
    have rest := ih (k := k + 1) fun j hj => by
      rw [Nat.add_assoc, Nat.add_comm 1]
      exact h (j + 1) (by omega)
    unfold checkItems
    rw [show item k = some (f k) from h 0 (by omega), rest, List.range_succ_eq_map, List.map_cons, List.map_map, shift]
    rfl

/-- An offer that passes its checks is the offer the record holds. -/
theorem RequestRecord.offer_eq {r : RequestRecord} {k : Nat} (h : r.offerOk k = true) : r.offer k = some (r.offerRead k) := by
  rw [← RequestRecord.offer_isSome] at h
  obtain ⟨o, ho⟩ := Option.isSome_iff_exists.1 h
  rw [ho, Option.some.injEq]
  unfold RequestRecord.offer at ho
  unfold RequestRecord.offerRead offerField
  dsimp only at ho ⊢
  generalize r.u8 (0x24 + 20 * (k - 1) + 19) = code at ho ⊢
  have kept : ∀ x : Offer, (if x.inRange then some x else none) = some o → o = x := fun x hx => by
    split at hx
    · exact (Option.some.inj hx).symm
    · exact nomatch hx
  match code with
  | 0 => exact nomatch ho
  | n + 5 => exact nomatch ho
  | 1 | 2 | 3 | 4 => exact kept _ ho

theorem RequestRecord.setOffersArgs_ok {r : RequestRecord} (h : allPass r.offerItems) :
    r.setOffersArgs =
      .ok (decide (r.u8 0x21 = 1), (List.range (r.u8 0x20)).map fun i => r.offerRead (i + 1)) := by
  unfold RequestRecord.offerItems at h
  have counts := h _ (List.mem_cons_self ..)
  rw [Bool.and_eq_true, within_eq_true, within_eq_true] at counts
  have offers : ∀ j < r.u8 0x20, r.offer (1 + j) = some (r.offerRead (1 + j)) := fun j hj => by
    rw [Nat.add_comm]
    exact RequestRecord.offer_eq (h _ (List.mem_cons_of_mem _ (List.mem_map.2 ⟨j, List.mem_range.2 hj, rfl⟩)))
  unfold RequestRecord.setOffersArgs
  rw [if_pos (by omega), checkItems_ok offers]
  simp only [Nat.add_comm 1]
  rfl

/-- An admission in an event that has changed nothing NOTICE speaks of. -/
theorem State.beginAdmission_noted {s u : State} (p : Pipe) (pipes : ∀ q, (s.pipe q).Steady (u.pipe q))
    (surfaces : ∀ k, (u.surf k).faults = (s.surf k).faults) : u.beginAdmission p = (u.admitting p).noted s := by
  rw [State.beginAdmission_eq, State.noted_congr _ pipes surfaces]

/-- Settles O12: the offers are those the record holds, and admission begins as with an ADMIT in HELD. -/
theorem setOffersStoresTheOffers : Obligations.SetOffersStoresTheOffers := by
  unfold Obligations.SetOffersStoresTheOffers
  intro s r p h target items x u
  have decided : s.decideSetOffers r = if r.u8 0x21 = 1 ∧ x.lc.state = .held then u.beginAdmission p else u := by
    have count : ((List.range (r.u8 0x20)).map fun i => r.offerRead (i + 1)).length = r.u8 0x20 := by simp
    unfold State.decideSetOffers
    rw [RequestRecord.pipeTarget_of target, RequestRecord.setOffersArgs_ok items]
    dsimp only
    rw [count]
    simp only [decide_eq_true_eq]
    rfl
  have versions : SameVersions s u := (s.answer_versions r .done none _).trans (State.withPipe_versions rfl)
  refine ⟨fun admits => ?_, fun waits => ?_⟩
  · refine becomes_of_decision rfl h (decided.trans ((if_pos admits).trans (State.beginAdmission_noted p ?_ fun _ => rfl)))
      (versions.trans (u.withPipe_versions rfl))
    intro q
    cases p <;> cases q <;> exact ⟨rfl, rfl, rfl⟩
  · exact becomes_of_decision rfl h (decided.trans (if_neg waits)) versions

/-! LIST (R22, R25, R48). -/

theorem validModes_iff (modes : List ModeRecord) : validModes modes = true ↔
    1 ≤ modes.length ∧ modes.length ≤ 7 ∧ ∀ m ∈ modes,
      240 ≤ m.v.toNat ∧ m.v.toNat ≤ 2160 ∧ 4 ≤ m.vb.toNat ∧ m.wmax.toNat ≤ 16 ∧ 100 ≤ m.hmin.toNat ∧
      m.hmin.toNat ≤ 4000 ∧ 2000 ≤ m.lwMin.toNat ∧ m.lwMin.toNat ≤ 80000 ∧ 200000 ≤ m.fmax.toNat ∧
      m.fmax.toNat ≤ 4000000 := by
  unfold validModes
  rw [Bool.and_eq_true, decide_eq_true_eq, List.all_eq_true, and_assoc]
  refine and_congr_right fun _ => and_congr_right fun _ => forall₂_congr fun m _ => ?_
  unfold modeValid
  rw [decide_eq_true_eq]
  constructor
  · rintro ⟨a, b, c, d, e, f, rest⟩
    exact ⟨a, b, c, f, d, e, rest⟩
  · rintro ⟨a, b, c, f, d, e, rest⟩
    exact ⟨a, b, c, d, e, f, rest⟩

/-! A selection reads the pipes and the Reference Unit alone (R41 to R44). -/

section

variable {s t : State} (pipes : t.pipes = s.pipes) (ref : t.ref = s.ref)
include pipes ref

theorem State.fits_congr (p : Pipe) (o : Offer) (m : ModeRecord) : t.fits p o m = s.fits p o m := by
  unfold State.fits State.lockCondition State.pipe
  rw [pipes, ref]

theorem State.firstMode_congr (p : Pipe) (o : Offer) (mi : Nat) (modes : List ModeRecord) :
    t.firstMode p o mi modes = s.firstMode p o mi modes := by
  induction modes generalizing mi with
  | nil => rfl
  | cons m ms ih =>
    unfold State.firstMode
    rw [State.fits_congr pipes ref, ih]

theorem State.firstPair_congr (p : Pipe) (modes : List ModeRecord) (oi : Nat) (offers : List Offer) :
    t.firstPair p modes oi offers = s.firstPair p modes oi offers := by
  induction offers generalizing oi with
  | nil => rfl
  | cons o os ih =>
    unfold State.firstPair
    rw [State.firstMode_congr pipes ref, ih]

theorem State.selection_congr (p : Pipe) : t.selection p = s.selection p := by
  have pipe : t.pipe p = s.pipe p := congrArg (·.get p) pipes
  unfold State.selection
  dsimp only
  rw [State.firstPair_congr pipes ref, pipe]

end

theorem State.admitting_notice (s : State) (p : Pipe) (n : Notices) :
    { s with notice := n }.admitting p = { s.admitting p with notice := n } := by
  unfold State.admitting
  dsimp only
  rw [State.selection_congr (s := s) (t := { s with notice := n }) rfl rfl]
  rfl

/-! NOTICE where a link changes its state twice. -/

/-- What `State.noted` puts into NOTICE. -/
theorem State.noted_notes {s u : State} (before : u.notice = s.notice)
    (surfaces : ∀ k, (u.surf k).faults = (s.surf k).faults) : Notes s (u.noted s) := by
  refine ⟨congrArg (·.cell) before, congrArg (·.report) before, ?_, ?_, surfaces⟩
  · rw [exists_pipe, ← before]
    simp only [State.noted, Bool.or_eq_true, decide_eq_true_eq, or_assoc]
    rfl
  · rw [exists_pipe, ← before]
    simp only [State.noted, surfaces, Bool.or_eq_true, decide_eq_true_eq, ne_eq, not_true_eq_false, or_false]
    rfl

/-- A link that leaves PROBING for HELD and at once for SELECTING. -/
theorem Notes.admitted {s t u : State} {p : Pipe} (first : Notes s t) (second : Notes t u) (kept : s.faultsKept t)
    (kept' : t.faultsKept u)
    (held : (t.pipe p).lc.state ≠ (s.pipe p).lc.state) (selecting : (u.pipe p).lc.state ≠ (s.pipe p).lc.state) :
    Notes s u := by
  refine ⟨second.cell.trans first.cell, second.report.trans first.report, ?_, ?_,
    fun k => (second.surfaces k).trans (first.surfaces k)⟩
  · have changed := first.pipe.2 (.inr ⟨p, .inl held⟩)
    exact ⟨fun _ => .inr ⟨p, .inl selecting⟩, fun _ => second.pipe.2 (.inl changed)⟩
  · rw [second.fault, first.fault, or_assoc, ← exists_or]
    exact or_congr_right (exists_congr fun p => PipeFaults.changed_iff (kept.1 p) (kept'.1 p))

/-! LIST. -/

/-- The link goes from PROBING to HELD with a valid LIST. -/
theorem State.enterHeld_eq {s : State} {p : Pipe} (probing : (s.pipe p).lc.state = .probing) (modes : List ModeRecord) :
    ((s.setLink p .held).modLc p fun lc => { lc.stopTimer with modes := modes }) =
      (s.withPipe p { s.pipe p with lc := { (s.pipe p).lc.stopTimer with state := .held, modes := modes } }).noted s := by
  have entered : Notes s ((s.setLink p .held).modLc p fun lc => { lc.stopTimer with modes := modes }) :=
    (s.setLink_notes p .held).seq (State.modLc_notes _ p _ rfl) (fun q => .inr (State.modLc_states _ p _ rfl q).1)
      (fun q => .inr (State.modLc_states _ p _ rfl q).2) ((Ordinary.refl s).setLink p .held).faults
      (State.modLc_kept _ p _)
  refine entered.eq_noted ?_ rfl
  rw [State.setLink_eq]
  cases p <;> rfl

/-- Settles O24: by the link state and the validity of the LIST. -/
theorem listEndsProbing : Obligations.ListEndsProbing := by
  unfold Obligations.ListEndsProbing
  intro s p modes x valid u admits
  have executed : modes.length ≤ 18 → exec (.list p modes) s = .next (publish s (s.receiveList p modes)) := fun short =>
    (exec_list s p modes).trans (event_of (decide_eq_true short) _)
  have versions : SameVersions s u := s.withPipe_versions rfl
  have received : x.lc.state = .probing → valid → s.receiveList p modes =
      if admits then (u.noted s).beginAdmission p else u.noted s := fun probing good => by
    unfold State.receiveList
    rw [if_neg (not_not_intro probing), if_pos ((validModes_iff modes).2 good), State.enterHeld_eq probing]
    exact if_congr (or_congr_left Option.isSome_iff_ne_none) rfl rfl
  refine ⟨fun probing good waits => ?_, fun probing good admitted => ?_, fun probing short bad => ?_, fun ignored => ?_⟩
  · have he := executed (by obtain ⟨-, few, -⟩ := good; omega)
    rw [received probing good, if_neg waits] at he
    exact becomes_of_publish he rfl (fun _ => rfl) versions
  · have he := executed (by obtain ⟨-, few, -⟩ := good; omega)
    have admission : (u.noted s).beginAdmission p = (u.admitting p).noted s := by
      have begun := (u.noted s).beginAdmission_eq p
      have fields : (u.noted s).admitting p = { u.admitting p with notice := (u.noted s).notice } :=
        u.admitting_notice p _
      have pipe : u.pipe p = { x with lc := { x.lc.stopTimer with state := .held, modes := modes } } :=
        s.withPipe_pipe p _
      have selecting : ((u.admitting p).pipe p).lc.state = .selecting := by
        rw [show (u.admitting p).pipe p = _ from u.withPipe_pipe p _]
        exact PipeState.selecting_link ..
      have toHeld : Notes s (u.noted s) := State.noted_notes rfl fun _ => rfl
      have onward : Notes (u.noted s) (((u.noted s).admitting p).noted (u.noted s)) :=
        State.noted_notes (by rw [fields]) fun k => by rw [fields]; rfl
      rw [begun]
      refine (toHeld.admitted (p := p) onward ?_ ?_ ?_ ?_).eq_noted (by rw [fields]; rfl) rfl
      · exact faultsKept_of_steady (fun q => by cases p <;> cases q <;> rfl) fun _ => rfl
      · rw [fields]
        exact faultsKept_of_steady (fun q => by cases p <;> cases q <;> rfl) fun _ => rfl
      · rw [show ((u.noted s).pipe p) = u.pipe p from rfl, pipe]
        exact fun h => nomatch h.trans probing
      · rw [fields]
        exact fun h => nomatch selecting.symm.trans (h.trans probing)
    rw [received probing good, if_pos admitted, admission] at he
    exact becomes_of_publish he rfl (fun _ => rfl) (versions.trans (u.withPipe_versions rfl))
  · have malformed : s.receiveList p modes = s.withPipe p { x with lc := { x.lc with malformedSeen := true } } := by
      unfold State.receiveList
      rw [if_neg (not_not_intro probing), if_neg fun h => bad ((validModes_iff modes).1 h)]
      rfl
    have he := executed short
    rw [malformed] at he
    exact becomes_of_publish he rfl (fun _ => rfl) (s.withPipe_versions rfl)
  · by_cases short : modes.length ≤ 18
    · have elsewhere : (s.pipe p).lc.state ≠ .probing := ignored.resolve_right (by omega)
      exact (executed short).trans (publish_idle (if_pos elsewhere))
    · exact (exec_list s p modes).trans (event_of_not (fun h => short (of_decide_eq_true h)) _)

end Sys2Proof.Machine
end

section
/-! PROOF. The restart of a pipe and the entry to ACTIVE (R26, R28, R34, R60, R82, R85). -/

namespace Sys2Proof.Machine

/-! PIPE_RESTART (R34). -/

/-- Owners that hand over nothing do not count. -/
theorem HandedOver.congr {x y : Rqi} {now : Word} {gs hs : List (List Completion)} (h : HandedOver x now gs y)
    (same : (gs.filter fun g => !g.isEmpty) = hs.filter fun g => !g.isEmpty) : HandedOver x now hs y := by
  have flat : gs.flatten = hs.flatten := by
    rw [← flatten_filter_nonempty gs, same, flatten_filter_nonempty]
  unfold HandedOver at h ⊢
  rw [← flat]
  split at h
  next none => rwa [if_pos none]
  next some =>
    rw [if_neg some]
    obtain ⟨order, perm, rfl⟩ := h
    have nonempty := perm.filter fun g => !g.isEmpty
    rw [same] at nonempty
    obtain ⟨order', perm', flat'⟩ := perm_of_nonempty hs _ nonempty
    exact ⟨order', perm', by rw [flat', flatten_filter_nonempty]⟩

/-- What PIPE_RESTART aborts: at the link's end what it leaves, then all that is still parked. -/
theorem PipeState.leaves_left (x : PipeState) :
    ((x.leaves ++ x.left.aborts).filter fun g => !g.isEmpty) = x.aborts.filter fun g => !g.isEmpty := by
  unfold PipeState.leaves PipeState.left
  rw [List.filter_append]
  cases x.lc.state.stops with
  | true => exact List.append_nil _
  | false => exact (List.filter_append [_] _).symm

/-- Every parked request is gone from the blocks. -/
def PipeState.unparked (x : PipeState) : PipeState :=
  { x with lc := { x.lc with parkedAdmit := none }, pb := { x.pb with phase := .none, negotiate := none },
           fr := { x.fr with frameNow := none, bands := [] } }

theorem State.abortParked_eq (s : State) (p : Pipe) : (s.abortParked p).1 = s.withPipe p (s.pipe p).unparked := by
  cases p <;> rfl

theorem PipeState.left_parked (x : PipeState) : x.left.lc.parkedAdmit = none := by
  unfold PipeState.left
  split <;> rfl

theorem State.turningOff_pipe (s : State) (p : Pipe) (why : StopReason) : (s.turningOff p why).pipe p =
    { (s.pipe p).left with lc := { (s.pipe p).left.lc with
      state := .off, stopReason := why, waiting := [], quietEnd := none } } := by
  unfold State.turningOff
  dsimp only
  rw [State.withPipe_pipe, State.leaving_pipe]

/-- The pipe after a restart, and NOTICE. -/
theorem State.restartPipe_eq {s : State} (safe : s.bankSafe) (p : Pipe) :
    ∃ q n, HandedOver s.rqi s.time (s.pipe p).aborts q ∧ s.restartPipe p =
      { (s.turningOff p .hostRestart).withPipe p (((s.turningOff p .hostRestart).pipe p).unparked.probing s.time) with
        rqi := q, free := n, notice := { s.notice with pipe := true } } := by
  obtain ⟨rqi, time, mem, notice⟩ := s.turningOff_kept p .hostRestart
  have fields := State.enterOff_fields (p := p) (fun _ => safe) .hostRestart
  have notes := State.enterOff_notes (p := p) (fun _ => safe) .hostRestart
  have hands : (s.enterOff p .hostRestart).2 = (s.pipe p).leaves := s.leaveLink_hands p
  have pipe := s.turningOff_pipe p .hostRestart
  have faults : ((s.enterOff p .hostRestart).1).notice.fault = s.notice.fault := by
    rw [Bool.eq_iff_iff, notes.fault]
    refine or_iff_left fun ⟨q, changed⟩ => changed ?_
    rw [fields]
    by_cases hq : q = p
    · subst hq
      exact (congrArg PipeState.faults pipe).trans (s.pipe q).left_faults
    · exact congrArg PipeState.faults ((State.withPipe_other _ _ hq).trans (s.leaving_other hq))
  unfold State.restartPipe
  dsimp only
  rw [hands]
  generalize s.enterOff p .hostRestart = x at *
  generalize s.turningOff p .hostRestart = u at *
  obtain ⟨t, gs⟩ := x
  dsimp only at *
  have own : t.pipe p = u.pipe p := by rw [fields]; rfl
  have off : ((t.withPipe p (u.pipe p).unparked).pipe p).lc.state = .off := by
    rw [State.withPipe_pipe, pipe]; rfl
  have aborted : (u.pipe p).aborts = (s.pipe p).left.aborts := by rw [pipe]; rfl
  rw [State.abortParked_eq, State.abortParked_hands, own, State.enterProbing_off off, State.withPipe_pipe,
    State.withPipe_withPipe, aborted]
  dsimp only
  have noticed : ({ t.notice with pipe := true } : Notices) = { s.notice with pipe := true } :=
    (Notices.mk.injEq ..).mpr ⟨notes.cell, notes.report, rfl, faults⟩
  have probes : ({ t.withPipe p ((u.pipe p).unparked.probing (t.withPipe p (u.pipe p).unparked).time) with
      notice := { t.notice with pipe := true } } : State) =
      { u.withPipe p ((u.pipe p).unparked.probing s.time) with notice := { s.notice with pipe := true } } := by
    rw [noticed, fields, ← time]
    rfl
  obtain ⟨q, n, finished, handed⟩ := State.handOverGroups_spec
    { u.withPipe p ((u.pipe p).unparked.probing s.time) with notice := { s.notice with pipe := true } }
    ((s.pipe p).leaves ++ (s.pipe p).left.aborts)
  refine ⟨q, n, ?_, (congrArg (fun v : State => v.handOverGroups _) probes).trans finished⟩
  have handed := handed.congr (s.pipe p).leaves_left
  simpa only [State.withPipe, rqi, time] using handed

/-- The records rewritten by `publish` are rewritten still, and besides them the pipe's own. -/
theorem State.pipeRewritten_recordChanged {s t : State} {p : Pipe} {a : Nat} (h : s.recordChanged t a) :
    s.recordChanged (t.pipeRewritten s p) a ∨ inRange a (pipeRecordBase p) 512 := by
  unfold State.pipeRewritten
  split
  next =>
    rcases h with ⟨q, inside, changed⟩ | ⟨k, inside, changed⟩ | bank | ref
    · by_cases hq : q = p
      · exact .inr (hq ▸ inside)
      · exact .inl (.inl ⟨q, inside, by rwa [State.rewritePipe_pipe_version, if_neg hq]⟩)
    · exact .inl (.inr (.inl ⟨k, inside, by rwa [State.rewritePipe_surf]⟩))
    · exact .inl (.inr (.inr (.inl (by rwa [State.rewritePipe_bank]))))
    · exact .inl (.inr (.inr (.inr (by rwa [State.rewritePipe_ref]))))
  next => exact .inl h

/-- Settles O15: the link passes through OFF, where all that is parked is aborted, into PROBING. -/
theorem pipeRestartProbesAgain : Obligations.PipeRestartProbesAgain := by
  unfold Obligations.PipeRestartProbesAgain
  intro s r p safe h target u x v
  obtain ⟨q, n, handed, restarted⟩ := State.restartPipe_eq (s := s.answer r .done none []) safe p
  have within : Within Set.univ s ((s.answer r .done none []).restartPipe p) :=
    ((Within.refl _ s).finishTake r .done []).restartPipe (reaches_univ s p)
  have executed : exec .pipeRestart s =
      .next ((publish s ((s.answer r .done none []).restartPipe p)).pipeRewritten s p) := by
    show execPipeRestart s = _
    unfold execPipeRestart State.decidePipeRestart
    rw [State.taken_eq_some.2 h]
    dsimp only
    rw [RequestRecord.pipeTarget_of target]
    rfl
  obtain ⟨rqi, time, mem, -⟩ := (s.answer r .done none []).turningOff_kept p .hostRestart
  refine ⟨q, _, ?_, executed, ?_, ?_, fun a unchanged outside => ?_⟩
  · rw [rqi]
    exact handed
  · rw [State.pipeRewritten_bare, publish_bare, restarted]
    have probing : (x.unparked.probing s.time) = PipeState.probing { x with
        pb := { x.pb with phase := .none, negotiate := none },
        fr := { x.fr with frameNow := none, bands := [] } } s.time := by
      have parked : x.lc.parkedAdmit = none := by
        rw [show x = _ from State.turningOff_pipe _ p .hostRestart]
        exact PipeState.left_parked _
      unfold PipeState.unparked
      rw [← parked]
    exact congrArg (fun y => ({ u.withPipe p y with rqi := q, notice := { s.notice with pipe := true } } : State).bare)
      probing
  · obtain ⟨-, rewritten⟩ := (pipeRewritten_step within ⟨rfl, r, h, target⟩).pipes p
    exact (rewritten (.inr ⟨rfl, r, h, target⟩)).1
  · rw [State.pipeRewritten_read _ _ _ _ outside, publish_read s _ within.versions a fun changed =>
      (State.pipeRewritten_recordChanged changed).elim unchanged outside, restarted]
    exact congrArg (·.read a) mem

/-! The entry to ACTIVE (R28, R60, R82, R108). -/

/-- The state as the link enters ACTIVE, its runner moved by `g`, before frame 1 starts. -/
def State.entered (s : State) (p : Pipe) (c : Contract) (lock : LockState) (g : Runner → Runner) : State :=
  let x := s.pipe p
  let plan := buildPlan 1 c (s.quietOf p).1 (s.quietOf p).2
  { s.withPipe p
    { x with
      lc := { x.lc.stopTimer with state := .active, outstanding := none, missedAcks := 0, parkedAdmit := none },
      pb := { x.pb with nextPlan := some plan }, fr := g x.fr, lock := x.lock.cleared lock } with
    mem := s.mem.writeBytes (planPageBase p) plan.bytes }

theorem State.entered_eq (s : State) (p : Pipe) (c : Contract) (lock : LockState) (g : Runner → Runner) :
    (((((s.setLink p .active).modLc p fun lc =>
      { lc.stopTimer with outstanding := none, missedAcks := 0, parkedAdmit := none }).makePlan p 1 c).setLock p
        fun l => l.dropHistory lock).modFr p g) = (s.entered p c lock g).noted s := by
  have blocks : (((((s.setLink p .active).modLc p fun lc =>
      { lc.stopTimer with outstanding := none, missedAcks := 0, parkedAdmit := none }).makePlan p 1 c).setLock p
        fun l => l.dropHistory lock).modFr p g) =
      { s.entered p c lock g with notice := { s.notice with
        pipe := s.notice.pipe || decide ((s.pipe p).lc.state ≠ .active) ||
          decide (lock ≠ (s.pipe p).lock.state) } } := by
    rw [State.setLock_eq, State.setLink_eq]
    cases p <;> rfl
  rw [blocks]
  have pipe := s.withPipe_pipe p { s.pipe p with
    lc := { (s.pipe p).lc.stopTimer with state := .active, outstanding := none, missedAcks := 0, parkedAdmit := none },
    pb := { (s.pipe p).pb with nextPlan := some (buildPlan 1 c (s.quietOf p).1 (s.quietOf p).2) }, fr := g (s.pipe p).fr,
    lock := (s.pipe p).lock.cleared lock }
  refine Notes.eq_noted (.one p (fun q hq => s.withPipe_other _ hq) (fun _ => rfl) rfl rfl ?_ ?_) rfl rfl
  · rw [show ∀ n, ({ s.entered p c lock g with notice := n } : State).pipe p = _ from fun _ => pipe]
    simp [LockCtl.cleared, or_assoc, @eq_comm _ LinkState.active]
  · rw [show ∀ n, ({ s.entered p c lock g with notice := n } : State).pipe p = _ from fun _ => pipe]
    simp

/-- The link in ACTIVE, frame 1 planned, before it starts or the runner waits. -/
def State.activating (s : State) (p : Pipe) (c : Contract) : State :=
  let plan := buildPlan 1 c (s.quietOf p).1 (s.quietOf p).2
  { s.withPipe p ((s.pipe p).activated s.time c plan) with mem := s.mem.writeBytes (planPageBase p) plan.bytes }

theorem State.enterActive_eq (s : State) (p : Pipe) (c : Contract) : s.enterActive p c =
    let admitted := handing (s.pipe p).lc.parkedAdmit .done c.admitResults
    if c.locked then ((s.activating p c).noted s, [admitted])
    else
      let x := ((s.activating p c).noted s).startFrame p .entry
      (x.1, admitted :: x.2) := by
  have hands : (match (s.pipe p).lc.parkedAdmit with
      | some r => [r.complete .done c.admitResults]
      | none => []) = handing (s.pipe p).lc.parkedAdmit .done c.admitResults := by
    cases (s.pipe p).lc.parkedAdmit <;> rfl
  unfold State.enterActive
  dsimp only
  cases locked : c.locked with
  | true =>
    have waits : s.activating p c = s.entered p c .aligning fun r =>
        { r with state := .aligning, frameNumber := 0, lastLength := 0, alignDeadline := some (s.after (2 * c.f)),
                 alignedStart := none } := by
      unfold State.activating PipeState.activated
      rw [if_pos locked, if_pos locked]
      rfl
    rw [if_pos rfl, if_pos rfl, waits, ← State.entered_eq]
    refine Prod.ext ?_ (congrArg (fun g => [g]) hands)
    cases p <;> rfl
  | false =>
    have starts : s.activating p c = s.entered p c .notLocking fun r => { r with frameNumber := 0, lastLength := 0 } := by
      unfold State.activating PipeState.activated
      rw [if_neg (by rw [locked]; decide), if_neg (by rw [locked]; decide)]
      rfl
    rw [if_neg (by decide), if_neg (by decide), starts, ← State.entered_eq]
    exact Prod.ext rfl (congrArg (fun g => g :: _) hands)

theorem State.begun_notice (s : State) (p : Pipe) (how : StartKind) (n : Notices) :
    { s with notice := n }.begun p how = { s.begun p how with notice := n } := by
  unfold State.begun
  dsimp only
  split
  · split
    · rw [if_pos (by assumption), if_pos (by assumption)]; rfl
    · rw [if_pos (by assumption), if_neg (by assumption)]; rfl
  · rw [if_neg (by assumption)]; rfl

theorem State.begun_self (s : State) (p : Pipe) (how : StartKind) :
    (s.begun p how).pipe p = (s.pipe p).begun how s.time (s.recentPulse p) := by
  unfold State.begun
  dsimp only
  split
  · split <;> cases p <;> rfl
  · exact s.withPipe_pipe p _

theorem State.begun_surfaces (s : State) (p : Pipe) (how : StartKind) : (s.begun p how).surfaces = s.surfaces := by
  unfold State.begun
  dsimp only
  split
  · split <;> rfl
  · rfl

theorem State.begun_same (s : State) (p : Pipe) (how : StartKind) : (s.begun p how).notice = s.notice := by
  unfold State.begun
  dsimp only
  split
  · split <;> rfl
  · rfl

/-- Frame 1 starts in the event in which the link enters ACTIVE. -/
theorem State.startEntry_eq {s u : State} {p : Pipe} (apart : u.peersApart) (before : u.notice = s.notice)
    (others : ∀ q, q ≠ p → u.pipe q = s.pipe q) (faults : (u.pipe p).faults = (s.pipe p).faults)
    (surfaces : ∀ k, (u.surf k).faults = (s.surf k).faults) :
    ((u.noted s).startFrame p .entry).1 = (u.begun p .entry).noted s ∧
      ((u.noted s).startFrame p .entry).2 = u.begunHands p .entry := by
  obtain ⟨begun, hands⟩ := (u.noted s).startFrame_eq p .entry apart
  have fields : (u.noted s).begun p .entry = { u.begun p .entry with notice := (u.noted s).notice } :=
    u.begun_notice p .entry _
  have kept := (ordinary_startFrame (u.noted s) p .entry).faults
  have surf : ∀ k, ((u.noted s).begun p .entry).surf k = (u.noted s).surf k := fun k =>
    congrArg (·.get k) ((u.noted s).begun_surfaces p .entry)
  have start : Notes (u.noted s) ((u.noted s).startFrame p .entry).1 := by
    rw [begun]
    exact State.noted_notes (by rw [fields]) fun k => by rw [surf]
  have own : ((u.noted s).startFrame p .entry).1.pipe p =
      (u.pipe p).begun .entry u.time (u.recentPulse p) := by
    rw [begun]
    exact (u.noted s).begun_self p .entry
  have keptBefore : s.faultsKept (u.noted s) := by
    refine faultsKept_of_steady (fun q => ?_) surfaces
    by_cases hq : q = p
    · exact hq ▸ faults
    · exact congrArg PipeState.faults (others q hq)
  have whole : Notes s ((u.noted s).startFrame p .entry).1 := by
    refine (State.noted_notes before surfaces).seq start (fun q => ?_) (fun q => ?_) keptBefore kept
    · by_cases hq : q = p
      · subst hq
        rw [own]
        exact .inr ((u.pipe q).begun_state .entry _ _)
      · exact .inl (congrArg (·.lc.state) (others q hq))
    · by_cases hq : q = p
      · subst hq
        rw [own]
        exact .inr rfl
      · exact .inl (congrArg (·.lock.state) (others q hq))
  refine ⟨whole.eq_noted ?_ ?_, hands⟩
  · rw [begun, fields]
    rfl
  · exact (u.begun_same p .entry).trans before

theorem State.peersApart_congr {s t : State} (apart : s.peersApart)
    (same : ∀ p, (t.pipe p).pb.contract = (s.pipe p).pb.contract ∧ (t.pipe p).pb.selected = (s.pipe p).pb.selected) :
    t.peersApart := by
  obtain ⟨contract0, selected0⟩ := same .p0
  obtain ⟨contract1, selected1⟩ := same .p1
  unfold State.peersApart PlanBuilder.holdsPeer at apart ⊢
  rwa [show t.pipes.p0.pb.contract = s.pipes.p0.pb.contract from contract0,
    show t.pipes.p1.pb.contract = s.pipes.p1.pb.contract from contract1,
    show t.pipes.p0.pb.selected = s.pipes.p0.pb.selected from selected0,
    show t.pipes.p1.pb.selected = s.pipes.p1.pb.selected from selected1]

/-- Settles O25: the plan of frame 1, then ALIGNING or the start of frame 1, by the cadence. -/
theorem ackOfSelectEntersActive : Obligations.AckOfSelectEntersActive := by
  unfold Obligations.AckOfSelectEntersActive
  intro s p mode c x selecting select force apart plan y u admitted
  have executed : exec (.ack p 0xA2 mode) s = .next (publish s (s.enterActive p c).finish) := by
    have acked : s.receiveAck p 0xA2 mode = (s.enterActive p c).finish := by
      unfold State.receiveAck
      rw [show (s.pipe p).lc.state = .selecting from selecting,
        show (s.pipe p).lc.outstanding = some (.select mode) from select,
        show (s.pipe p).pb.contract = some c from force]
      exact if_pos ⟨rfl, rfl⟩
    rw [← acked]
    exact exec_ack s p _ _
  have own : u.pipe p = y := s.withPipe_pipe p y
  have versions : SameVersions s u := s.withPipe_versions rfl
  refine ⟨fun cadence => ?_, fun cadence => ?_⟩
  · have locked : c.locked = true := decide_eq_true cadence
    rw [State.enterActive_eq, if_pos locked] at executed
    obtain ⟨q, n, finished, handed⟩ := (u.noted s).handOverGroups_spec [admitted]
    have ends : Handing.finish ((s.activating p c).noted s, [handing (s.pipe p).lc.parkedAdmit .done c.admitResults]) =
        { u.noted s with rqi := q, free := n } := finished
    have executed := executed.trans (congrArg (fun v => Host.Outcome.next (publish s v)) ends)
    exact ⟨q, handed, becomes_of_publish executed rfl (fun _ => rfl) versions⟩
  · have free : ¬ c.locked = true := fun locked => by
      rcases cadence with h | h <;> simp [Contract.locked, h] at locked
    have apartThen : u.peersApart := State.peersApart_congr apart fun q => by cases p <;> cases q <;> exact ⟨rfl, rfl⟩
    obtain ⟨begun, hands⟩ := State.startEntry_eq (s := s) (u := u) (p := p) apartThen rfl
      (fun q hq => s.withPipe_other _ hq) (by rw [own]; rfl) fun _ => rfl
    rw [State.enterActive_eq, if_neg free] at executed
    obtain ⟨rqi, time, mem⟩ := u.begun_kept p .entry
    obtain ⟨q, n, finished, handed⟩ := ((u.begun p .entry).noted s).handOverGroups_spec
      (admitted :: u.begunHands p .entry)
    have ends : Handing.finish (((u.noted s).startFrame p .entry).1,
        admitted :: ((u.noted s).startFrame p .entry).2) = { (u.begun p .entry).noted s with rqi := q, free := n } := by
      rw [begun, hands]
      exact finished
    have executed := executed.trans (congrArg (fun v => Host.Outcome.next (publish s v)) ends)
    refine ⟨q, ?_, becomes_of_publish executed rfl (fun _ => rfl) (versions.trans (u.begun_versions p .entry))⟩
    simpa only [State.noted, rqi, time, List.singleton_append] using handed

end Sys2Proof.Machine
end

section
/-! PROOF. The bytes of the panel's messages (R18, R188, 12.6). -/

namespace Sys2Proof.Machine

/-! Bytes of halves and words. -/

theorem halfBytes_append (v : Half) : BitVec.ofNat 8 (v.toNat / 256) ++ BitVec.ofNat 8 v.toNat = v := by
  apply BitVec.eq_of_toNat_eq
  rw [BitVec.toNat_append, BitVec.toNat_ofNat, BitVec.toNat_ofNat, ← Nat.shiftLeft_add_eq_or_of_lt (by omega),
    Nat.shiftLeft_eq]
  have := v.isLt
  omega

theorem halfBytes_low (high low : Byte) : BitVec.ofNat 8 (high ++ low).toNat = low := by
  apply BitVec.eq_of_toNat_eq
  rw [BitVec.toNat_ofNat, BitVec.toNat_append, ← Nat.shiftLeft_add_eq_or_of_lt low.isLt, Nat.shiftLeft_eq]
  have := low.isLt
  omega

theorem halfBytes_high (high low : Byte) : BitVec.ofNat 8 ((high ++ low).toNat / 256) = high := by
  apply BitVec.eq_of_toNat_eq
  rw [BitVec.toNat_ofNat, BitVec.toNat_append, ← Nat.shiftLeft_add_eq_or_of_lt low.isLt, Nat.shiftLeft_eq]
  have := low.isLt
  have := high.isLt
  omega

theorem wordBytes_wordOfBytes (b0 b1 b2 b3 : Byte) : wordBytes (wordOfBytes b0 b1 b2 b3) = [b0, b1, b2, b3] := by
  unfold wordBytes wordOfBytes
  rw [List.cons.injEq, List.cons.injEq, List.cons.injEq, List.cons.injEq]
  refine ⟨?_, ?_, ?_, ?_, rfl⟩ <;> ext i hi <;> simp only [← BitVec.getLsbD_eq_getElem] <;> grind

/-! Mode records (12.6). -/

/-- The 14 bytes of a mode record in a LIST. -/
def modeSent (m : ModeRecord) : List Byte := (modeBytes m).take 14

theorem modeSent_length (m : ModeRecord) : (modeSent m).length = 14 := rfl

theorem modeOfBytes_sent (m : ModeRecord) : modeOfBytes (modeSent m) = m := by
  have halves := halfBytes_append
  have words := wordOfBytes_wordBytes
  obtain ⟨v, vb, wmax, hmin, lwMin, fmax⟩ := m
  exact (ModeRecord.mk.injEq ..).mpr ⟨halves v, rfl, rfl, halves hmin, words lwMin, words fmax⟩

theorem sent_modeOfBytes : ∀ bs : List Byte, bs.length = 14 → modeSent (modeOfBytes bs) = bs
  | [b0, b1, b2, b3, b4, b5, b6, b7, b8, b9, b10, b11, b12, b13], _ => by
    show u16 (b1 ++ b0).toNat ++ [b2, b3] ++ u16 (b5 ++ b4).toNat ++ wordBytes (wordOfBytes b6 b7 b8 b9) ++
      wordBytes (wordOfBytes b10 b11 b12 b13) = _
    unfold u16
    rw [wordBytes_wordOfBytes, wordBytes_wordOfBytes, halfBytes_low, halfBytes_high, halfBytes_low, halfBytes_high]
    rfl

theorem sent_flatMap_length (modes : List ModeRecord) : (modes.flatMap modeSent).length = 14 * modes.length := by
  induction modes with
  | nil => rfl
  | cons m ms ih =>
    rw [List.flatMap_cons, List.length_append, ih, (modeSent_length m), List.length_cons]
    omega

theorem modesOfBytes_sent (modes : List ModeRecord) :
    modesOfBytes modes.length (modes.flatMap modeSent) = modes := by
  induction modes with
  | nil => rfl
  | cons m ms ih =>
    rw [List.flatMap_cons, List.length_cons]
    unfold modesOfBytes
    rw [List.take_left' (modeSent_length m), List.drop_left' (modeSent_length m), modeOfBytes_sent, ih]

theorem sent_modesOfBytes {n : Nat} {bs : List Byte} (h : bs.length = 14 * n) :
    (modesOfBytes n bs).flatMap modeSent = bs ∧ (modesOfBytes n bs).length = n := by
  induction n generalizing bs with
  | zero => exact ⟨(List.eq_nil_of_length_eq_zero h).symm, rfl⟩
  | succ n ih =>
    obtain ⟨rest, count⟩ := ih (bs := bs.drop 14) (by rw [List.length_drop]; omega)
    unfold modesOfBytes
    have first : modeSent (modeOfBytes (bs.take 14)) = bs.take 14 :=
      sent_modeOfBytes _ (by rw [List.length_take]; omega)
    rw [List.flatMap_cons, rest, first, List.take_append_drop, List.length_cons, count]
    exact ⟨rfl, rfl⟩

/-! Messages. -/

def RxMessage.type : RxMessage → Byte
  | .list _ => 0x61
  | .ack _ _ => 0x62
  | .nak => 0x63
  | .panelFault _ => 0x64

def RxMessage.payload : RxMessage → List Byte
  | .list modes => BitVec.ofNat 8 modes.length :: modes.flatMap modeSent
  | .ack t v => [t, v]
  | .nak => []
  | .panelFault code => [code]

/-- A message as it comes, but for its CRC. -/
def RxMessage.body (m : RxMessage) : List Byte := m.type :: BitVec.ofNat 8 m.payload.length :: m.payload

/-- The command a message is. -/
def RxMessage.command (p : Pipe) : RxMessage → Instr
  | .list modes => .list p modes
  | .ack t v => .ack p t v
  | .nak => .nak p
  | .panelFault code => .panelFault p code

theorem RxMessage.list_length (modes : List ModeRecord) :
    (RxMessage.list modes).payload.length = 1 + 14 * modes.length := by
  show (_ :: modes.flatMap modeSent).length = _
  rw [List.length_cons, sent_flatMap_length, Nat.add_comm]

theorem rxOfPayload_list (count : Byte) (rest : List Byte) : rxOfPayload 0x61 (count :: rest) =
    if rest.length = 14 * count.toNat then some (.list (modesOfBytes count.toNat rest)) else none := rfl

/-- A payload is read as the message it spells. -/
theorem rxOfPayload_payload {m : RxMessage} (short : m.payload.length < 256) :
    rxOfPayload m.type m.payload = some m := by
  cases m with
  | list modes =>
    rw [RxMessage.list_length] at short
    have count : (BitVec.ofNat 8 modes.length).toNat = modes.length := by
      rw [BitVec.toNat_ofNat]
      omega
    refine (rxOfPayload_list _ _).trans ?_
    rw [count, if_pos (sent_flatMap_length modes), modesOfBytes_sent]
  | ack t v => rfl
  | nak => rfl
  | panelFault code => rfl

/-- No other type is a message's. The match on the type byte is unfolded here to the four tests it stands for: `split`
would decide statements about all pairs of bytes to tell its cases apart. -/
theorem rxOfPayload_other {type : Byte} (list : type ≠ 0x61) (ack : type ≠ 0x62) (nak : type ≠ 0x63)
    (panelFault : type ≠ 0x64) (payload : List Byte) : rxOfPayload type payload = none := by
  delta rxOfPayload rxOfPayload.match_1
  exact (dif_neg list).trans ((dif_neg ack).trans ((dif_neg nak).trans (dif_neg panelFault)))

theorem rxOfPayload_some {type : Byte} {payload : List Byte} {m : RxMessage} (h : rxOfPayload type payload = some m) :
    type = m.type ∧ payload = m.payload := by
  by_cases list : type = 0x61
  · subst list
    match payload with
    | [] => exact nomatch h
    | count :: rest =>
      rw [rxOfPayload_list] at h
      split at h
      next length =>
        obtain rfl := Option.some.inj h
        obtain ⟨bytes, counted⟩ := sent_modesOfBytes length
        refine ⟨rfl, ?_⟩
        show _ = BitVec.ofNat 8 (modesOfBytes count.toNat rest).length :: (modesOfBytes count.toNat rest).flatMap _
        rw [bytes, counted, BitVec.ofNat_toNat, BitVec.setWidth_eq]
      next => exact nomatch h
  by_cases ack : type = 0x62
  · subst ack
    match payload with
    | [] | [_] | _ :: _ :: _ :: _ => exact nomatch h
    | [t, v] => exact (Option.some.inj h) ▸ ⟨rfl, rfl⟩
  by_cases nak : type = 0x63
  · subst nak
    match payload with
    | [] => exact (Option.some.inj h) ▸ ⟨rfl, rfl⟩
    | _ :: _ => exact nomatch h
  by_cases panelFault : type = 0x64
  · subst panelFault
    match payload with
    | [] | _ :: _ :: _ => exact nomatch h
    | [code] => exact (Option.some.inj h) ▸ ⟨rfl, rfl⟩
  rw [rxOfPayload_other list ack nak panelFault] at h
  exact nomatch h

/-- The checks of R18 on the bytes of a message. -/
theorem rxOfBytes_eq (type len : Byte) (payload : List Byte) (crc : Byte) :
    rxOfBytes (type :: len :: (payload ++ [crc])) =
      if payload.length = len.toNat ∧ crc8 (type :: len :: payload) = crc then rxOfPayload type payload else none := by
  unfold rxOfBytes
  simp only [List.length_append, List.length_singleton, List.dropLast_concat, List.getLastD_concat,
    Nat.add_right_cancel_iff]

theorem rxOfBytes_short (type len : Byte) : rxOfBytes [type, len] = none := by
  unfold rxOfBytes
  exact if_neg fun h => nomatch h.1

/-- What passes the checks is the body of a message, then its CRC. -/
theorem rxOfBytes_some {bytes : List Byte} {m : RxMessage} (h : rxOfBytes bytes = some m) :
    m.payload.length < 256 ∧ bytes = m.body ++ [crc8 m.body] := by
  match bytes with
  | [] => exact nomatch h
  | [_] => exact nomatch h
  | type :: len :: rest =>
    rcases List.eq_nil_or_concat' rest with rfl | ⟨payload, crc, rfl⟩
    · rw [rxOfBytes_short] at h
      exact nomatch h
    · rw [rxOfBytes_eq] at h
      split at h
      next passes =>
        obtain ⟨length, rfl⟩ := passes
        obtain ⟨rfl, rfl⟩ := rxOfPayload_some h
        have bound := len.isLt
        have lens : BitVec.ofNat 8 m.payload.length = len := by
          rw [length, BitVec.ofNat_toNat, BitVec.setWidth_eq]
        refine ⟨by omega, ?_⟩
        unfold RxMessage.body
        rw [lens]
        rfl
      next => exact nomatch h

theorem rxOfBytes_body {m : RxMessage} (short : m.payload.length < 256) (crc : Byte) :
    rxOfBytes (m.body ++ [crc]) = if crc = crc8 m.body then some m else none := by
  have length : m.payload.length = (BitVec.ofNat 8 m.payload.length).toNat := by
    rw [BitVec.toNat_ofNat]
    omega
  refine (rxOfBytes_eq m.type _ m.payload crc).trans ?_
  rw [rxOfPayload_payload short]
  refine if_congr ?_ rfl rfl
  rw [and_iff_right length, eq_comm]
  rfl

/-- A received message that passes the checks acts as its command. -/
theorem exec_command (s : State) (p : Pipe) {m : RxMessage} (short : m.payload.length < 256) :
    exec (m.command p) s = .next (publish s (s.receive p m)) := by
  cases m with
  | list modes =>
    rw [RxMessage.list_length] at short
    exact (exec_list s p modes).trans (event_of (decide_eq_true (show modes.length ≤ 18 by omega)) _)
  | ack t v => exact exec_ack s p t v
  | nak => exact exec_nak s p
  | panelFault code => exact exec_panelFault s p code

theorem exec_messageRejected (s : State) (p : Pipe) (bytes : List Byte) : exec (.messageRejected p bytes) s =
    .next (match rxOfBytes bytes with
      | some m => publish s (s.receive p m)
      | none => s) := rfl

/-- The four spellings of a body. -/
theorem spelled_iff (p : Pipe) (c : Instr) (body : List Byte) :
    ((∃ modes : List ModeRecord, modes.length ≤ 18 ∧ c = .list p modes ∧
        body = [0x61, BitVec.ofNat 8 (1 + 14 * modes.length), BitVec.ofNat 8 modes.length] ++
          modes.flatMap fun m => (modeBytes m).take 14) ∨
      (∃ t v, c = .ack p t v ∧ body = [0x62, 2, t, v]) ∨ (c = .nak p ∧ body = [0x63, 0]) ∨
      ∃ code, c = .panelFault p code ∧ body = [0x64, 1, code]) ↔
    ∃ m : RxMessage, m.payload.length < 256 ∧ c = m.command p ∧ body = m.body := by
  have list : ∀ modes : List ModeRecord, (RxMessage.list modes).body =
      [0x61, BitVec.ofNat 8 (1 + 14 * modes.length), BitVec.ofNat 8 modes.length] ++
        modes.flatMap fun m => (modeBytes m).take 14 := fun modes => by
    unfold RxMessage.body
    rw [RxMessage.list_length]
    rfl
  constructor
  · rintro (⟨modes, few, rfl, rfl⟩ | ⟨t, v, rfl, rfl⟩ | ⟨rfl, rfl⟩ | ⟨code, rfl, rfl⟩)
    · exact ⟨.list modes, by rw [RxMessage.list_length]; omega, rfl, (list modes).symm⟩
    · exact ⟨.ack t v, Nat.lt_of_sub_eq_succ rfl, rfl, rfl⟩
    · exact ⟨.nak, by decide, rfl, rfl⟩
    · exact ⟨.panelFault code, Nat.lt_of_sub_eq_succ rfl, rfl, rfl⟩
  · rintro ⟨m, short, rfl, rfl⟩
    cases m with
    | list modes =>
      rw [RxMessage.list_length] at short
      exact .inl ⟨modes, by omega, rfl, list modes⟩
    | ack t v => exact .inr (.inl ⟨t, v, rfl, rfl⟩)
    | nak => exact .inr (.inr (.inl ⟨rfl, rfl⟩))
    | panelFault code => exact .inr (.inr (.inr ⟨code, rfl, rfl⟩))

/-- Settles O23: what passes the checks is read back from the bytes of its message. -/
theorem receivedBytesAreChecked : Obligations.ReceivedBytesAreChecked := by
  unfold Obligations.ReceivedBytesAreChecked
  intro s p spells
  refine ⟨fun bytes => ⟨?_, fun unspelled => ?_⟩, fun bytes rejected => ?_, fun body crc c spelled => ?_⟩
  · rintro rejected ⟨c, body, spelled, rfl⟩
    obtain ⟨m, short, rfl, rfl⟩ := (spelled_iff p c body).1 spelled
    rw [rxOfBytes_body short, if_pos rfl] at rejected
    exact nomatch rejected
  · by_contra passes
    obtain ⟨m, received⟩ := Option.ne_none_iff_exists'.1 passes
    obtain ⟨short, rfl⟩ := rxOfBytes_some received
    exact unspelled ⟨m.command p, m.body, (spelled_iff p _ _).2 ⟨m, short, rfl, rfl⟩, rfl⟩
  · rw [exec_messageRejected, rejected]
  · obtain ⟨m, short, rfl, rfl⟩ := (spelled_iff p c body).1 spelled
    rw [exec_messageRejected, rxOfBytes_body short, exec_command s p short]
    by_cases correct : crc = crc8 m.body
    · rw [if_pos correct, if_pos correct]
    · rw [if_neg correct, if_neg correct]

end Sys2Proof.Machine
end

section
/-! PROOF. What a pipe's blocks keep, one by one (R20, R35, R38, R57, R61, R81, R94, R101, R108, R123). -/

namespace Sys2Proof.Machine

/-! The bounds, block by block. -/

/-- The bounds of the link's own fields (R20, R22, R30). -/
structure LinkCtl.bounded (lc : LinkCtl) : Prop where
  modes      : lc.modes.length ≤ 7 ∧ lc.modes.all modeValid = true
  listed     : lc.state = .held ∨ lc.state = .selecting ∨ lc.state = .active → lc.modes ≠ []
  probeCount : lc.probeCount ≤ 8
  missedAcks : lc.missedAcks ≤ 3 ∧ (lc.state = .active → lc.missedAcks ≤ 2)
  recoveries : lc.recoveryCount ≤ 255

/-- The bounds of the Plan Builder's own fields (R38, R57). -/
structure PlanBuilder.bounded (b : PlanBuilder) : Prop where
  offers    : b.offers.length ≤ 7 ∧ b.offers.all Offer.inRange = true
  contracts : ∀ c, b.contract = some c ∨ b.selected = some c → c.inRange
  nextPlan  : ∀ pl, b.nextPlan = some pl → pl.slots.length ≤ 35

/-- The bounds of the runner's own fields (R81, R123). -/
structure Runner.bounded (r : Runner) : Prop where
  plan     : ∀ pl, r.plan = some pl → pl.slots.length ≤ 35
  slot     : r.slot ≤ 35 ∧ (r.state ≠ .running → r.slot = 0) ∧
    ∀ pl, r.state = .running → r.plan = some pl → 1 ≤ r.slot ∧ r.slot ≤ pl.slots.length
  aligning : (r.state ≠ .aligning → r.alignDeadline = none ∧ r.alignedStart = none) ∧
    (r.alignDeadline = none ∨ r.alignedStart = none)
  bands    : r.bands.length ≤ 4 ∧ ∀ b ∈ r.bands, b.inRange

/-- The bounds of the lock's own fields (R101). -/
structure LockCtl.bounded (l : LockCtl) : Prop where
  counts     : l.within ≤ 3 ∧ l.beyond ≤ 1
  phaseError : -2000000 ≤ l.phaseError ∧ l.phaseError ≤ 1999999
  trim       : -2048 ≤ l.trim ∧ l.trim ≤ 2048

/-- Each band that waits for its frame names lines of the contract it was checked against (R124, R129). -/
def bandsWithin (bands : List Band) (contract : Option Contract) : Prop :=
  ∀ b ∈ bands, b.serving = none → b.wholeFrame = false → ∀ c, contract = some c → b.lastLine < c.v

theorem PipeState.bounded_iff (x : PipeState) : x.bounded ↔
    x.lc.bounded ∧ x.pb.bounded ∧ x.fr.bounded ∧ x.lock.bounded ∧ bandsWithin x.fr.bands x.pb.contract := by
  constructor
  · intro h
    exact ⟨⟨h.modes, h.listed, h.probeCount, h.missedAcks, h.recoveries⟩,
      ⟨h.offers, h.contracts, fun pl e => h.plans pl (.inr e)⟩,
      ⟨fun pl e => h.plans pl (.inl e), h.slot, h.aligning, h.bands⟩, ⟨h.counts, h.phaseError, h.trim⟩, h.bandLines⟩
  · rintro ⟨lc, pb, fr, lock, bandLines⟩
    exact ⟨lc.modes, lc.listed, lc.probeCount, lc.missedAcks, lc.recoveries, pb.offers, pb.contracts,
      fun pl e => e.elim (fr.plan pl) (pb.nextPlan pl), fr.slot, fr.aligning, lock.counts, lock.phaseError, lock.trim,
      fr.bands, bandLines⟩

/-- What every step keeps of a pipe. -/
structure PipeState.sound (x : PipeState) : Prop where
  coherent : x.coherent
  link     : x.lc.bounded
  builder  : x.pb.bounded
  runner   : x.fr.bounded
  lock     : x.lock.bounded
  bands    : bandsWithin x.fr.bands x.pb.contract

theorem PipeState.sound_iff (x : PipeState) : x.sound ↔ x.coherent ∧ x.bounded := by
  rw [PipeState.bounded_iff]
  exact ⟨fun h => ⟨h.coherent, h.link, h.builder, h.runner, h.lock, h.bands⟩,
    fun ⟨c, l, b, r, k, w⟩ => ⟨c, l, b, r, k, w⟩⟩

/-! Links. -/

theorem PipeState.coherent_idle {x : PipeState} (h : x.coherent) (lc : LinkCtl) (idle : x.lc.state.stops = false)
    (still : lc.state.stops = false) : { x with lc := lc }.coherent := by
  obtain ⟨contract, phase, selected, staged, waits, installed, waiting, runner, plan, nextPlan, bursts, aligning, locking,
    stretch⟩ := h
  unfold LinkState.stops at idle still
  constructor <;> grind

theorem PipeState.coherent_stopped (x : PipeState) (lc : LinkCtl) 
    (still : lc.state.stops = false) : { x.stopped with lc := lc }.coherent := by
  unfold LinkState.stops at still
  unfold PipeState.stopped LockCtl.cleared
  constructor <;> grind [Runner.planDue]

theorem PipeState.coherent_selecting {x : PipeState} (h : x.coherent) (now : Word) (c : Contract) (n : Word)
    (held : x.lc.state = .held) :
    ({ x with pb := { x.pb with contract := some c, counter := n } }.selecting now c).coherent := by
  have link := PipeState.selecting_link { x with pb := { x.pb with contract := some c, counter := n } } now c
  obtain ⟨contract, phase, selected, staged, waits, installed, waiting, runner, plan, nextPlan, bursts, aligning, locking,
    stretch⟩ := h
  generalize hy : PipeState.selecting _ now c = y at link ⊢
  have pb : y.pb = { x.pb with contract := some c, counter := n } := by rw [← hy]; rfl
  have fr : y.fr = x.fr := by rw [← hy]; rfl
  have lock : y.lock.state = .notLocking := by rw [← hy]; rfl
  constructor <;> grind [Runner.planDue]

theorem PipeState.coherent_changingMode {x : PipeState} (h : x.coherent) (now : Word) (c : Contract) (chosen : x.pb.selected.isSome = true) :
    (x.changingMode now c).coherent := by
  obtain ⟨contract, phase, selected, staged, waits, installed, waiting, runner, plan, nextPlan, bursts, aligning, locking,
    stretch⟩ := h
  unfold PipeState.changingMode
  generalize hx : PipeState.mk .. = z
  have link := PipeState.selecting_link z now c
  generalize hy : PipeState.selecting _ now c = y at link ⊢
  have pb : y.pb = { x.pb with contract := some c, selected := none, phase := .installed } := by rw [← hy, ← hx]; rfl
  have fr : y.fr.state = .stopped ∧ y.fr.plan = none := by rw [← hy, ← hx]; exact ⟨rfl, rfl⟩
  have lock : y.lock.state = .notLocking := by rw [← hy, ← hx]; rfl
  constructor <;> grind [Runner.planDue]

/-- Entry to ACTIVE under a locked contract. -/
theorem PipeState.coherent_aligning {x : PipeState} (h : x.coherent) (now : Word) {c : Contract} {plan : Plan}
    (selecting : x.lc.state = .selecting) (force : x.pb.contract = some c) (locked : c.locked = true)
    (burst : plan.startsWithBurst) : (x.activated now c plan).coherent := by
  obtain ⟨contract, phase, selected, staged, waits, installed, waiting, runner, plan', nextPlan, bursts, aligning, locking,
    stretch⟩ := h
  unfold PipeState.activated LockCtl.cleared
  rw [if_pos locked, if_pos locked]
  constructor <;> grind [Runner.planDue]

/-- What a frame start needs of the pipe. -/
structure PipeState.startable (x : PipeState) (how : StartKind) : Prop where
  active   : x.lc.state = .active
  force    : x.pb.contract.isSome = true
  phase    : x.pb.phase = .none ↔ x.pb.negotiate = none
  selected : x.pb.selected.isSome = true ↔ x.pb.phase = .selected
  ends     : x.pb.phase = .selected → how = .next
  planned  : x.pb.nextPlan.isSome = true
  bursts   : ∀ pl, x.pb.nextPlan = some pl → pl.startsWithBurst
  lock     : match how with
    | .entry => x.lock.state = .notLocking ∧ x.pb.contract.map Contract.locked = some false
    | .aligned => x.pb.contract.map Contract.locked = some true
    | .deadline => x.pb.contract.map Contract.locked = some true
    | .next => x.lock.state ≠ .aligning ∧ (x.lock.state ≠ .notLocking ↔ x.pb.contract.map Contract.locked = some true)

theorem LockCtl.measuredAt_state (l : LockCtl) (now : Word) (c : Contract) :
    ((l.measuredAt now c).1.state = .notLocking ↔ l.state = .notLocking) ∧
      ((l.measuredAt now c).1.state = .aligning ↔ l.state = .aligning) := by
  unfold LockCtl.measuredAt
  cases state : l.state <;> dsimp only <;> grind

theorem LockCtl.onward_state (l : LockCtl) (now : Word) (c : Contract) :
    ((l.onward now c).1.state = .notLocking ↔ l.state = .notLocking) ∧
      ((l.onward now c).1.state = .aligning ↔ l.state = .aligning) := by
  unfold LockCtl.onward
  split
  · exact l.measuredAt_state now c
  · exact ⟨.rfl, .rfl⟩

theorem LockCtl.replaced_state {l : LockCtl} {old c : Contract} (now : Word) (recent : Option Word)
    (locking : l.state ≠ .notLocking ↔ old.locked = true) (past : l.state ≠ .aligning) :
    ((l.replaced now old c recent).1.state ≠ .notLocking ↔ c.locked = true) ∧
      (l.replaced now old c recent).1.state ≠ .aligning := by
  have free : (c.cadence = .free ∨ c.cadence = .relaxed) ↔ c.locked = false := by
    unfold Contract.locked
    cases c.cadence <;> simp
  have same : c.cadence = old.cadence → c.locked = old.locked := fun e => by unfold Contract.locked; rw [e]
  have onward := l.onward_state now c
  unfold LockCtl.replaced
  split
  · grind [LockCtl.cleared]
  · split
    · grind
    · split
      next t => 
        rw [LockCtl.measuredAt_seeking _ _ rfl rfl]
        grind
      next => grind

/-- No contract is installed but at the end of a frame. -/
theorem PipeState.inForce_of {x : PipeState} {how : StartKind} (h : ¬ (how = .next ∧ x.pb.phase = .selected)) :
    x.installs how = none ∧ x.inForce how = x.pb.contract := by
  have none : x.installs how = none := if_neg h
  unfold PipeState.inForce
  rw [none]
  exact ⟨rfl, rfl⟩

/-- At the end of a frame the selected contract goes into force. -/
theorem PipeState.inForce_selected {x : PipeState} {c : Contract} (phase : x.pb.phase = .selected)
    (selected : x.pb.selected = some c) : x.installs .next = some c ∧ x.inForce .next = some c := by
  have installs : x.installs .next = some c := (if_pos ⟨rfl, phase⟩).trans selected
  unfold PipeState.inForce
  rw [installs]
  exact ⟨rfl, rfl⟩

theorem LockCtl.started_state {x : PipeState} {how : StartKind} (h : x.startable how) (now : Word)
    (recent : Contract → Option Word) :
    let l := (x.lock.started how now (x.inForce how) (if (x.installs how).isSome then x.pb.contract else none) recent).1
    (l.state ≠ .notLocking ↔ (x.inForce how).map Contract.locked = some true) ∧ l.state ≠ .aligning := by
  obtain ⟨active, force, phase, selected, ends, planned, bursts, lock⟩ := h
  by_cases change : how = .next ∧ x.pb.phase = .selected
  · obtain ⟨rfl, picked⟩ := change
    obtain ⟨c, chosen⟩ := Option.isSome_iff_exists.1 (selected.2 picked)
    obtain ⟨old, force⟩ := Option.isSome_iff_exists.1 force
    obtain ⟨installs, inForce⟩ := PipeState.inForce_selected picked chosen
    obtain ⟨past, locking⟩ := lock
    rw [force] at locking
    have replaced := LockCtl.replaced_state (l := { x.lock with lastFrameStart := some now }) (old := old) (c := c) now
      (recent c) (by simpa using locking) past
    rw [installs, inForce, force]
    simpa [LockCtl.started] using replaced
  · obtain ⟨installs, inForce⟩ := PipeState.inForce_of change
    rw [installs, inForce]
    cases how with
    | entry => grind [LockCtl.started]
    | aligned => grind [LockCtl.started]
    | deadline => grind [LockCtl.started]
    | next =>
      obtain ⟨c, force⟩ := Option.isSome_iff_exists.1 force
      have onward := LockCtl.onward_state { x.lock with lastFrameStart := some now } now c
      grind [LockCtl.started]

theorem PipeState.coherent_begun {x : PipeState} {how : StartKind} (h : x.startable how) (now : Word)
    (recent : Contract → Option Word) : (x.begun how now recent).coherent := by
  have locks := LockCtl.started_state h now recent
  have link := x.begun_state how now recent
  obtain ⟨active, force, phase, selected, ends, planned, bursts, lock⟩ := h
  obtain ⟨pl, plan⟩ := Option.isSome_iff_exists.1 planned
  have burst := bursts pl plan
  have due : (x.begun how now recent).fr.planDue = false := by
    have slot : (x.begun how now recent).fr.currentSlot = pl.slots[0]? := by
      unfold PipeState.begun Runner.currentSlot
      dsimp only
      rw [plan]
      rfl
    unfold Plan.startsWithBurst at burst
    unfold Runner.planDue
    rw [show (x.begun how now recent).fr.state = .running from rfl, slot, ← List.head?_eq_getElem?, burst]
    rfl
  generalize hy : x.begun how now recent = y at *
  have pb : y.pb = { x.pb with
      nextPlan := none, contract := x.inForce how,
      selected := if (x.installs how).isSome then none else x.pb.selected,
      phase := if x.settles how then .none else x.pb.phase,
      negotiate := if x.settles how then none else x.pb.negotiate } := by rw [← hy]; rfl
  have fr : y.fr.state = .running ∧ y.fr.plan = x.pb.nextPlan ∧ y.fr.frameNow = none := by rw [← hy]; exact ⟨rfl, rfl, rfl⟩
  have lk : y.lock = (x.lock.started how now (x.inForce how) (if (x.installs how).isSome then x.pb.contract else none) recent).1 := by 
    rw [← hy]; rfl
  rw [← lk] at locks
  by_cases change : how = .next ∧ x.pb.phase = .selected
  · obtain ⟨rfl, picked⟩ := change
    obtain ⟨c, chosen⟩ := Option.isSome_iff_exists.1 (selected.2 picked)
    obtain ⟨installs, inForce⟩ := PipeState.inForce_selected picked chosen
    have settles : x.settles .next = true := by unfold PipeState.settles; rw [installs]; rfl
    constructor <;> grind
  · obtain ⟨installs, inForce⟩ := PipeState.inForce_of change
    have settles : x.settles how = decide (x.pb.phase = .installed ∧ x.pb.contract.isSome = true) := by
      unfold PipeState.settles; rw [installs]; rfl
    constructor <;> grind

/-- A pipe that waits in ALIGNING can start frame 1. -/
theorem PipeState.startable_aligning {x : PipeState} (h : x.coherent) (waits : x.fr.state = .aligning)
    {how : StartKind} (kind : how = .aligned ∨ how = .deadline) : x.startable how := by
  obtain ⟨contract, phase, selected, staged, waiting, installed, parked, runner, plan, nextPlan, bursts, aligning, locking,
    stretch⟩ := h
  have active : x.lc.state = .active := by grind
  have due : x.fr.planDue = true := by unfold Runner.planDue; rw [waits]
  have still : x.pb.modeChangeWaiting = false := by
    have none : x.pb.selected = none := by
      rw [← Option.not_isSome_iff_eq_none]
      grind
    unfold PlanBuilder.modeChangeWaiting
    rw [none]
  constructor <;> grind

/-- A pipe whose frame ends, with no mode change waiting, can start the next. -/
theorem PipeState.startable_next {x : PipeState} (h : x.coherent) (runs : x.fr.state = .running ∨ x.fr.state = .stretch)
    (due : x.fr.planDue = true) (still : x.pb.modeChangeWaiting = false) : x.startable .next := by
  obtain ⟨contract, phase, selected, staged, waiting, installed, parked, runner, plan, nextPlan, bursts, aligning, locking,
    stretch⟩ := h
  constructor <;> grind

/-- A pipe that enters ACTIVE under an unlocked contract can start frame 1. -/
theorem PipeState.startable_entry {x : PipeState} (h : x.coherent) (now : Word) {c : Contract} {plan : Plan}
    (selecting : x.lc.state = .selecting) (force : x.pb.contract = some c) (unlocked : c.locked = false)
    (burst : plan.startsWithBurst) : (x.activated now c plan).startable .entry := by
  obtain ⟨contract, phase, selected, staged, waiting, installed, parked, runner, plan', nextPlan, bursts, aligning, locking,
    stretch⟩ := h
  unfold PipeState.activated LockCtl.cleared
  rw [if_neg (by rw [unlocked]; decide), if_neg (by rw [unlocked]; decide)]
  constructor <;> grind

/-- A pulse of its source leaves the pipe in agreement. -/
theorem PipeState.coherent_pulsed {x : PipeState} (h : x.coherent) (now : Word) : (x.pulsed now).coherent := by
  have fr : (x.pulsed now).fr.state = x.fr.state ∧ (x.pulsed now).fr.plan = x.fr.plan ∧
      (x.pulsed now).fr.planDue = x.fr.planDue ∧ (x.pulsed now).fr.frameNow = x.fr.frameNow ∧
      (x.pulsed now).fr.bands = x.fr.bands := by
    unfold PipeState.pulsed
    dsimp only
    split
    · exact ⟨rfl, rfl, rfl, rfl, rfl⟩
    · exact ⟨rfl, rfl, rfl, rfl, rfl⟩
  have pb : (x.pulsed now).pb = x.pb := rfl
  have lc : (x.pulsed now).lc = x.lc := rfl
  have lock : ((x.pulsed now).lock.state = .notLocking ↔ x.lock.state = .notLocking) ∧
      ((x.pulsed now).lock.state = .aligning ↔ x.lock.state = .aligning) := by
    unfold PipeState.pulsed
    grind
  generalize x.pulsed now = y at *
  obtain ⟨contract, phase, selected, staged, waits, installed, waiting, runner, plan, nextPlan, bursts, aligning, locking,
    stretch⟩ := h
  constructor <;> grind

/-- Updates that leave what the blocks agree on, with at most a parked ADMIT, a request for the runner, a slot and the lock's
history changed. -/
theorem PipeState.coherent_congr {x y : PipeState} (h : x.coherent) (link : y.lc.state = x.lc.state)
    (contract : y.pb.contract = x.pb.contract) (selected : y.pb.selected = x.pb.selected)
    (phase : y.pb.phase = x.pb.phase) (negotiate : y.pb.negotiate = x.pb.negotiate)
    (nextPlan : y.pb.nextPlan = x.pb.nextPlan) (runner : y.fr.state = x.fr.state) (plan : y.fr.plan = x.fr.plan)
    (due : y.fr.planDue = true → y.pb.modeChangeWaiting = false → y.pb.nextPlan.isSome = true)
    (parked : y.fr.frameNow.isSome = true ∨ y.fr.bands ≠ [] → y.lc.state = .selecting ∨ y.lc.state = .active)
    (lock : (y.lock.state = .notLocking ↔ x.lock.state = .notLocking) ∧
      (y.lock.state = .aligning ↔ x.lock.state = .aligning)) : y.coherent := by
  obtain ⟨contract', phase', selected', staged, waits, installed, waiting, runner', plan', nextPlan', bursts, aligning, locking,
    stretch⟩ := h
  constructor <;> grind

/-- A NEGOTIATE parks on an ACTIVE pipe (R49). -/
theorem PipeState.coherent_staged {x : PipeState} (h : x.coherent) (active : x.lc.state = .active)
    (free : x.pb.negotiate = none) (r : Parked) :
    { x with pb := { x.pb with negotiate := some r, phase := .staged } }.coherent := by
  obtain ⟨contract, phase, selected, staged, waits, installed, waiting, runner, plan, nextPlan, bursts, aligning, locking,
    stretch⟩ := h
  constructor <;> grind [PlanBuilder.modeChangeWaiting]

/-- The trim line of a RELAXED frame ends in STRETCH (R94). -/
theorem PipeState.coherent_stretch {x : PipeState} (h : x.coherent) (runs : x.fr.state = .running)
    (due : x.fr.planDue = true) (relaxed : x.pb.contract.map (·.cadence) = some .relaxed) (limit : Word) :
    { x with fr := { x.fr with
      state := .stretch, slot := 0, trimEnd := none, stretchLimit := some limit } }.coherent := by
  obtain ⟨contract, phase, selected, staged, waits, installed, waiting, runner, plan, nextPlan, bursts, aligning, locking,
    stretch⟩ := h
  constructor <;> grind [Runner.planDue]

end Sys2Proof.Machine
end

section
/-! PROOF. Contracts, plans and locks in their ranges (R41 to R46, R57, R64, R101, R111, R115). -/

namespace Sys2Proof.Machine

/-! Selections (R41 to R46). -/

theorem nextContractNumber_ne (counter : Word) : nextContractNumber counter ≠ 0 := by
  unfold nextContractNumber
  split
  · decide
  next h =>
    intro e
    apply h
    bv_omega

theorem modeValid_iff (m : ModeRecord) : modeValid m = true ↔
    240 ≤ m.v.toNat ∧ m.v.toNat ≤ 2160 ∧ 4 ≤ m.vb.toNat ∧ 100 ≤ m.hmin.toNat ∧ m.hmin.toNat ≤ 4000 ∧
    m.wmax.toNat ≤ 16 ∧ 2000 ≤ m.lwMin.toNat ∧ m.lwMin.toNat ≤ 80000 ∧ 200000 ≤ m.fmax.toNat ∧
    m.fmax.toNat ≤ 4000000 := decide_eq_true_iff

theorem fitWindows_le (p : Pipe) (o : Offer) (m : ModeRecord) : fitWindows p o m ≤ o.w := by
  cases p with
  | p0 => exact Nat.zero_le _
  | p1 => exact Nat.min_le_left ..

theorem fitWindowLength_le {p : Pipe} {o : Offer} {m : ModeRecord} (offer : o.lw ≤ 80000) (mode : m.lwMin.toNat ≤ 80000) :
    fitWindowLength p o m ≤ 80000 := by
  unfold fitWindowLength
  split
  · exact Nat.zero_le _
  · exact max_le offer mode

/-- A pair that fits. -/
theorem State.fits_spec {s : State} {p : Pipe} {o : Offer} {m : ModeRecord} (h : s.fits p o m = true) :
    s.lockCondition p o = true ∧ 0 < fitBudget p o m ∧ m.hmin.toNat ≤ fitBudget p o m / modeLines m ∧
      fitBudget p o m / modeLines m ≤ 65535 := by
  unfold State.fits at h
  simp only [Bool.and_eq_true, decide_eq_true_eq] at h
  obtain ⟨⟨⟨-, lock⟩, budget⟩, period⟩ := h
  exact ⟨lock, budget, period⟩

theorem offerContract_inRange {s : State} {p : Pipe} {o : Offer} {m : ModeRecord} {oi mi : Nat} {number : Word}
    (fits : s.fits p o m = true) (offer : o.inRange = true) (mode : modeValid m = true) (number_ne : number ≠ 0)
    (offers : oi ≤ 7) (modes : 1 ≤ mi ∧ mi ≤ 7) : (offerContract number p oi o mi m).inRange := by
  obtain ⟨-, budget, low, high⟩ := State.fits_spec fits
  obtain ⟨⟨period, windows, length⟩, relaxed, locked⟩ := (Offer.inRange_iff o).1 offer
  obtain ⟨v0, v1, vb, h0, h1, -, lw0, lw1, -, -⟩ := (modeValid_iff m).1 mode
  simp only [within_eq_true] at period windows length relaxed locked
  have windows' := fitWindows_le p o m
  have length' : fitWindowLength p o m ≤ 80000 := fitWindowLength_le (by omega) lw1
  have divided : modeLines m * (fitBudget p o m / modeLines m) + fitBudget p o m % modeLines m = fitBudget p o m :=
    Nat.div_add_mod ..
  have left : fitBudget p o m = o.f - fitWindows p o m * fitWindowLength p o m := rfl
  have rest : fitBudget p o m % modeLines m < modeLines m := Nat.mod_lt _ (by unfold modeLines; omega)
  have byte := m.vb.isLt
  have isLocked : (offerContract number p oi o mi m).locked = true ↔ o.cadence = .lockedRef ∨ o.cadence = .lockedPeer :=
    decide_eq_true_iff
  constructor <;> unfold offerContract <;> dsimp only
  case number => exact number_ne
  case indexes => exact ⟨offers, modes⟩
  case lines => exact ⟨v0, v1, vb, by omega, rfl⟩
  case period => exact ⟨h0, h1, low, high⟩
  case windows => exact ⟨by omega, length'⟩
  case frame =>
    split
    next r => have := relaxed r; exact ⟨by omega, by omega, by simp; omega⟩
    next => exact ⟨by omega, by omega, by simp; omega⟩
  case budget => exact ⟨by omega, rest⟩
  case trimMax =>
    split
    next r => have := locked r; omega
    next => omega
  case lock =>
    intro l
    have r := isLocked.1 l
    have := locked r
    rw [if_pos r, if_pos r]
    exact ⟨rfl, by omega, by omega⟩

theorem fallbackContract_inRange {m : ModeRecord} {number : Word} {noOffers : Bool} (mode : modeValid m = true)
    (number_ne : number ≠ 0) : (fallbackContract number noOffers m).inRange := by
  obtain ⟨v0, v1, vb, h0, h1, -⟩ := (modeValid_iff m).1 mode
  have byte := m.vb.isLt
  have lines : modeLines m = m.v.toNat + m.vb.toNat := rfl
  generalize hf : max 200000 (modeLines m * m.hmin.toNat) = f
  have divided : modeLines m * (f / modeLines m) + f % modeLines m = f := Nat.div_add_mod ..
  have rest : f % modeLines m < modeLines m := Nat.mod_lt _ (by omega)
  have lasts : modeLines m * m.hmin.toNat ≤ 2415 * 4000 := Nat.mul_le_mul (by omega) h1
  have low : m.hmin.toNat ≤ f / modeLines m := by
    rw [Nat.le_div_iff_mul_le (by omega), Nat.mul_comm]
    omega
  have high : f / modeLines m ≤ 65535 := by
    refine (Nat.div_le_div_right (show f ≤ 9660000 by omega)).trans ?_
    rw [Nat.div_le_iff_le_mul_add_pred (by omega)]
    omega
  constructor <;> unfold fallbackContract <;> dsimp only
  case number => exact number_ne
  case indexes => decide
  case lines => exact ⟨v0, v1, vb, by omega, rfl⟩
  case period => rw [hf]; exact ⟨h0, h1, low, high⟩
  case windows => decide
  case frame => rw [hf, if_pos rfl]; omega
  case budget => rw [hf]; omega
  case trimMax => decide
  case lock => exact fun l => absurd (of_decide_eq_true l) (by dsimp only; decide)

/-- The pair a selection takes: an offer and a mode of the lists, at their positions, that fit. -/
theorem State.firstMode_spec {s : State} {p : Pipe} {o : Offer} {modes : List ModeRecord} {k mi : Nat} {m : ModeRecord}
    (h : s.firstMode p o k modes = some (mi, m)) :
    s.fits p o m = true ∧ m ∈ modes ∧ k ≤ mi ∧ mi < k + modes.length := by
  induction modes generalizing k with
  | nil => exact nomatch h
  | cons x xs ih =>
    unfold State.firstMode at h
    rw [List.length_cons]
    split at h
    next fits =>
      obtain ⟨rfl, rfl⟩ := Prod.mk.inj (Option.some.inj h)
      exact ⟨fits, List.mem_cons_self .., le_rfl, by omega⟩
    next =>
      obtain ⟨fits, mem, low, high⟩ := ih h
      exact ⟨fits, List.mem_cons_of_mem _ mem, by omega, by omega⟩

theorem State.firstPair_spec {s : State} {p : Pipe} {modes : List ModeRecord} {offers : List Offer} {k oi mi : Nat}
    {o : Offer} {m : ModeRecord} (h : s.firstPair p modes k offers = some (oi, o, mi, m)) :
    s.fits p o m = true ∧ o ∈ offers ∧ m ∈ modes ∧ oi < k + offers.length ∧ 1 ≤ mi ∧ mi ≤ modes.length := by
  induction offers generalizing k with
  | nil => exact nomatch h
  | cons x xs ih =>
    unfold State.firstPair at h
    rw [List.length_cons]
    split at h
    next found =>
      obtain ⟨fits, mem, low, high⟩ := State.firstMode_spec found
      simp only [Option.some.injEq, Prod.mk.injEq] at h
      obtain ⟨rfl, rfl, rfl, rfl⟩ := h
      exact ⟨fits, List.mem_cons_self .., mem, by omega, low, by omega⟩
    next =>
      obtain ⟨fits, offer, mode, high, range⟩ := ih h
      exact ⟨fits, List.mem_cons_of_mem _ offer, mode, by omega, range⟩

/-- A selection out of valid modes and checked offers is in range, and follows the other pipe only by the lock condition. -/
theorem State.selection_spec {s : State} {p : Pipe} (offers : (s.pipe p).pb.offers.length ≤ 7 ∧
    (s.pipe p).pb.offers.all Offer.inRange = true) (modes : (s.pipe p).lc.modes.length ≤ 7 ∧
    (s.pipe p).lc.modes.all modeValid = true) (listed : (s.pipe p).lc.modes ≠ []) :
    (s.selection p).inRange ∧ ((s.selection p).cadence = .lockedPeer →
      ∃ o : Offer, o.cadence = .lockedPeer ∧ s.lockCondition p o = true) := by
  have number := nextContractNumber_ne (s.pipe p).pb.counter
  have valid := List.all_eq_true.1 modes.2
  unfold State.selection
  dsimp only
  split
  next oi o mi m found =>
    obtain ⟨fits, offer, mode, index, first, last⟩ := State.firstPair_spec found
    refine ⟨offerContract_inRange fits (List.all_eq_true.1 offers.2 o offer) (valid m mode) number (by omega)
      ⟨first, by omega⟩, fun follows => ⟨o, follows, (State.fits_spec fits).1⟩⟩
  next =>
    refine ⟨fallbackContract_inRange ?_ number, nofun⟩
    obtain ⟨m, ms, e⟩ := List.exists_cons_of_ne_nil listed
    rw [e]
    exact valid m (by rw [e]; exact List.mem_cons_self ..)

/-! Plans (R57, R64, R72). -/

/-- Every burst but the last is followed by its window. -/
theorem layoutSlots_placeWindows (spans : List Span) (shiftMax lw h : Nat) (counts : List Nat) :
    ∀ before wins cur t line j,
      (layoutSlots h lw t line j (placeWindows spans shiftMax lw h before wins cur counts)).length =
        2 * counts.length + 1 := by
  induction counts with
  | nil => exact fun _ _ _ _ _ _ => rfl
  | cons next rest ih =>
    intro before wins cur t line j
    unfold placeWindows layoutSlots
    rw [List.length_cons, List.length_cons, ih, List.length_cons]
    omega

theorem layoutSlots_head (h lw t line j n : Nat) (window : Option Placement) (rest : List (Nat × Option Placement)) :
    ((layoutSlots h lw t line j ((n, window) :: rest)).head?.map Slot.kind) = some .burst := by
  cases window <;> rfl

theorem nominalCounts_length (v w : Nat) : (nominalCounts v w).length = w + 1 := by
  unfold nominalCounts
  rw [List.length_map, List.length_range]

/-- The bursts of a plan, placed: the first of them, then as many windows as the contract has. -/
theorem placedBursts_spec (c : Contract) (spans : List Span) (shiftMax : Nat) :
    (∃ n window rest, placedBursts c spans shiftMax = (n, window) :: rest) ∧
      (layoutSlots c.h c.lw 0 0 1 (placedBursts c spans shiftMax)).length = 2 * c.w + 1 := by
  have count := nominalCounts_length c.v c.w
  unfold placedBursts
  split
  next none => rw [none] at count; exact nomatch count
  next first rest bursts =>
    rw [bursts, List.length_cons] at count
    refine ⟨?_, by rw [layoutSlots_placeWindows]; omega⟩
    cases rest with
    | nil => exact ⟨_, _, _, rfl⟩
    | cons next rest => exact ⟨_, _, _, rfl⟩

/-- A plan holds up to 17 bursts, 16 windows, BLANK and TRIM, and begins with a burst. -/
theorem buildPlan_spec {c : Contract} (inRange : c.w ≤ 16) (frame : Word) (spans : List Span) (shiftMax : Nat) :
    (buildPlan frame c spans shiftMax).slots.length ≤ 35 ∧ (buildPlan frame c spans shiftMax).startsWithBurst := by
  obtain ⟨⟨n, window, rest, first⟩, length⟩ := placedBursts_spec c spans shiftMax
  have slots : (buildPlan frame c spans shiftMax).slots = layoutSlots c.h c.lw 0 0 1 (placedBursts c spans shiftMax) ++
    [.blank (c.v * c.h + c.w * c.lw) ((c.vb - 1) * c.h) c.v (c.vb - 1),
     .trim (c.v * c.h + c.w * c.lw + (c.vb - 1) * c.h) (c.h + c.q)] := rfl
  refine ⟨?_, ?_⟩
  · rw [slots, List.length_append, length]
    simp only [List.length_cons, List.length_nil]
    omega
  · unfold Plan.startsWithBurst
    have head := layoutSlots_head c.h c.lw 0 0 1 n window rest
    rw [← first] at head
    rw [slots, List.head?_append]
    cases e : (layoutSlots c.h c.lw 0 0 1 (placedBursts c spans shiftMax)).head? with
    | none => rw [e] at head; exact nomatch head
    | some x => rw [e] at head; exact head

/-! The lock (R101, R111, R112, R115). -/

/-- The range of a phase error: half a frame to either side. -/
theorem reducePhase_range {f : Nat} (low : 0 < f) (high : f ≤ 4000000) (raw : Int) :
    -2000000 ≤ reducePhase f raw ∧ reducePhase f raw ≤ 1999999 := by
  have pos : (0 : Int) < f := by omega
  have remainder := Int.emod_nonneg (raw + ((f / 2 : Nat) : Int)) (show (f : Int) ≠ 0 by omega)
  have below := Int.emod_lt_of_pos (raw + ((f / 2 : Nat) : Int)) pos
  unfold reducePhase
  omega

/-- A contract a lock measures by. -/
theorem Contract.inRange.measures {c : Contract} (h : c.inRange) (locked : c.locked = true) :
    0 < c.f ∧ c.f ≤ 4000000 := by
  obtain ⟨low, length, high⟩ := h.frame
  rw [(h.lock locked).1] at high
  simp only [Bool.false_eq_true, if_false] at high
  omega

theorem LockCtl.bounded.measuredAt {l : LockCtl} (h : l.bounded) (now : Word) {c : Contract} (range : c.inRange)
    (locked : c.locked = true) : (l.measuredAt now c).1.bounded := by
  obtain ⟨low, high⟩ := range.measures locked
  have error : -2000000 ≤ l.errorAt now c ∧ l.errorAt now c ≤ 1999999 := reducePhase_range low high _
  obtain ⟨counts, phase, trim⟩ := h
  unfold LockCtl.measuredAt
  generalize l.errorAt now c = e at error
  cases state : l.state <;> dsimp only
  case seeking =>
    split
    · exact ⟨⟨Nat.zero_le _, counts.2⟩, error, trim⟩
    · split
      · exact ⟨⟨Nat.zero_le _, Nat.zero_le _⟩, error, trim⟩
      · exact ⟨⟨by dsimp only; omega, counts.2⟩, error, trim⟩
  case locked =>
    split
    · exact ⟨⟨counts.1, Nat.zero_le _⟩, error, trim⟩
    · split
      · exact ⟨⟨Nat.zero_le _, Nat.zero_le _⟩, error, trim⟩
      · exact ⟨⟨counts.1, by dsimp only; omega⟩, error, trim⟩
  all_goals exact ⟨counts, error, trim⟩

theorem LockCtl.bounded.onward {l : LockCtl} (h : l.bounded) (now : Word) {c : Contract} (range : c.inRange)
    (locked : l.state ≠ .notLocking → c.locked = true) : (l.onward now c).1.bounded := by
  unfold LockCtl.onward
  split
  next follows => exact h.measuredAt now range (locked (by rcases follows with e | e <;> rw [e] <;> nofun))
  next => exact ⟨h.counts, h.phaseError, h.trim⟩

theorem LockCtl.bounded.cleared (l : LockCtl) (state : LockState) : (l.cleared state).bounded :=
  ⟨⟨Nat.zero_le _, Nat.zero_le _⟩, show (-2000000 : Int) ≤ 0 ∧ (0 : Int) ≤ 1999999 by decide,
    show (-2048 : Int) ≤ 0 ∧ (0 : Int) ≤ 2048 by decide⟩

theorem LockCtl.bounded.replaced {l : LockCtl} (h : l.bounded) (now : Word) {old c : Contract} (range : c.inRange)
    (recent : Option Word) : (l.replaced now old c recent).1.bounded := by
  unfold LockCtl.replaced
  split
  · exact .cleared l _
  next follows =>
    have locked : c.locked = true := by
      unfold Contract.locked
      cases e : c.cadence <;> simp [e] at follows ⊢
    split
    · exact h.onward now range fun _ => locked
    · split
      next t =>
        refine LockCtl.bounded.measuredAt ?_ now range locked
        exact ⟨⟨Nat.zero_le _, Nat.zero_le _⟩, h.phaseError, h.trim⟩
      next => exact ⟨⟨Nat.zero_le _, Nat.zero_le _⟩, h.phaseError, h.trim⟩

theorem LockCtl.bounded.started {l : LockCtl} (h : l.bounded) (how : StartKind) (now : Word)
    {c replaced : Option Contract} (range : ∀ x, c = some x → x.inRange)
    (locked : how = .next → replaced = none → l.state ≠ .notLocking → ∀ x, c = some x → x.locked = true)
    (recent : Contract → Option Word) : (l.started how now c replaced recent).1.bounded := by
  have noted : { l with lastFrameStart := some now }.bounded := ⟨h.counts, h.phaseError, h.trim⟩
  unfold LockCtl.started
  cases how with
  | entry => exact ⟨h.counts, h.phaseError, h.trim⟩
  | aligned => exact ⟨h.counts, h.phaseError, h.trim⟩
  | deadline => exact ⟨⟨Nat.zero_le _, Nat.zero_le _⟩, h.phaseError, h.trim⟩
  | next =>
    dsimp only
    split
    next x old => exact noted.replaced now (range x rfl) _
    next x => exact noted.onward now (range x rfl) fun following => locked rfl rfl following x rfl
    next => exact noted

theorem LockCtl.adjustment_range {c : Contract} (range : c.inRange) (l : LockCtl) :
    -2048 ≤ l.adjustment c ∧ l.adjustment c ≤ 2048 := by
  have most := range.trimMax
  obtain ⟨-, -, least, -⟩ := range.period
  unfold LockCtl.adjustment clampTrim
  dsimp only
  split
  · split <;> omega
  · exact ⟨by decide, by decide⟩

end Sys2Proof.Machine
end

section
/-! PROOF. What the operations on one pipe keep of it: links (R20 to R37). -/

namespace Sys2Proof.Machine

/-- The fault set and the record's version play no part in a pipe's soundness. -/
theorem PipeState.sound.alike {x y : PipeState} (h : x.sound) (lc : y.lc = x.lc) (pb : y.pb = x.pb) (fr : y.fr = x.fr)
    (lock : y.lock = x.lock) : y.sound := by
  obtain ⟨coherent, link, builder, runner, locks, bands⟩ := h
  refine ⟨?_, lc ▸ link, pb ▸ builder, fr ▸ runner, lock ▸ locks, by rw [fr, pb]; exact bands⟩
  obtain ⟨contract, phase, selected, staged, waits, installed, waiting, runs, plan, nextPlan, bursts, aligning, locking,
    stretch⟩ := coherent
  constructor <;> (rw [← lc, ← pb, ← fr, ← lock] at *; assumption)

/-! The link's own bounds. -/

theorem LinkCtl.bounded.congr {x y : LinkCtl} (h : x.bounded) (state : y.state = x.state) (modes : y.modes = x.modes)
    (probes : y.probeCount = x.probeCount) (misses : y.missedAcks = x.missedAcks)
    (recoveries : y.recoveryCount = x.recoveryCount) : y.bounded := by
  obtain ⟨valid, listed, probeCount, missedAcks, recoveryCount⟩ := h
  exact ⟨modes ▸ valid, by rw [state, modes]; exact listed, probes ▸ probeCount, by rw [state, misses]; exact missedAcks,
    recoveries ▸ recoveryCount⟩

theorem LinkCtl.bounded.plus {lc : LinkCtl} (h : lc.bounded) (now : Word) (m : TxMessage) (supervised : Bool) :
    (lc.plus now m supervised).bounded := by
  unfold LinkCtl.plus
  split
  · exact h.congr rfl rfl rfl rfl rfl
  · exact h.congr rfl rfl rfl rfl rfl

/-- A link whose state changes, with its modes kept. -/
theorem LinkCtl.bounded.enter {lc : LinkCtl} (h : lc.bounded) {y : LinkCtl} (modes : y.modes = lc.modes)
    (probes : y.probeCount = lc.probeCount) (recoveries : y.recoveryCount ≤ 255)
    (listed : y.state = .held ∨ y.state = .selecting ∨ y.state = .active → lc.modes ≠ [])
    (missed : y.missedAcks ≤ 3 ∧ (y.state = .active → y.missedAcks ≤ 2)) : y.bounded :=
  ⟨modes ▸ h.modes, fun e => modes ▸ listed e, probes ▸ h.probeCount, missed, recoveries⟩

section
variable {x : PipeState} (h : x.sound)
include h

/-- The link stays in its state. -/
theorem PipeState.sound.relink (lc : LinkCtl) (same : lc.state = x.lc.state) (bounded : lc.bounded) :
    { x with lc := lc }.sound := by
  have due := h.coherent.nextPlan
  have waiting := h.coherent.waiting
  rw [← same] at waiting
  exact ⟨PipeState.coherent_congr h.coherent same rfl rfl rfl rfl rfl rfl rfl due waiting ⟨.rfl, .rfl⟩, bounded, h.builder,
    h.runner, h.lock, h.bands⟩

/-- The link goes from one idle state to another. -/
theorem PipeState.sound.idle (lc : LinkCtl) (idle : x.lc.state.stops = false) (still : lc.state.stops = false)
    (bounded : lc.bounded) : { x with lc := lc }.sound :=
  ⟨PipeState.coherent_idle h.coherent lc idle still, bounded, h.builder, h.runner, h.lock, h.bands⟩

/-- A link stop ends in an idle state (R35). -/
theorem PipeState.sound.stopped (lc : LinkCtl) (still : lc.state.stops = false) (bounded : lc.bounded) :
    { x.stopped with lc := lc }.sound where
  coherent := x.coherent_stopped lc still
  link := bounded
  builder := ⟨h.builder.offers, nofun, nofun⟩
  runner := ⟨nofun, ⟨Nat.zero_le _, fun _ => rfl, nofun⟩, ⟨fun _ => ⟨rfl, rfl⟩, .inl rfl⟩, Nat.zero_le _, nofun⟩
  lock := .cleared _ _
  bands := nofun

/-- A link leaves its state for an idle one. -/
theorem PipeState.sound.left (lc : LinkCtl) (still : lc.state.stops = false) (bounded : lc.bounded) :
    { x.left with lc := lc }.sound := by
  unfold PipeState.left
  split
  · exact h.stopped lc still bounded
  next idle => exact h.idle lc (by simpa using idle) still bounded

/-- No request is parked for an idle link but an ADMIT. -/
theorem PipeState.sound.unparked_eq (idle : x.lc.state.stops = false) :
    x.unparked = { x with lc := { x.lc with parkedAdmit := none } } := by
  obtain ⟨contract, phase, selected, staged, waits, installed, waiting, runs, plan, nextPlan, bursts, aligning, locking,
    stretch⟩ := h.coherent
  have phase' : x.pb.phase = .none := by
    unfold LinkState.stops at idle
    cases e : x.pb.phase <;> grind
  have parked : x.fr.frameNow = none ∧ x.fr.bands = [] := by
    rw [Option.isSome_iff_ne_none] at waiting
    unfold LinkState.stops at idle
    grind
  have negotiate := phase.1 phase'
  obtain ⟨frameNow, bands⟩ := parked
  unfold PipeState.unparked
  obtain ⟨lc, pb, fr, lock, faults, version⟩ := x
  cases pb
  cases fr
  subst phase' negotiate frameNow bands
  rfl

/-- An idle link enters PROBING (R21). -/
theorem PipeState.sound.probing (idle : x.lc.state.stops = false) (now : Word) : (x.probing now).sound := by
  refine h.idle _ idle (by rw [LinkCtl.plus_state]; rfl) (LinkCtl.bounded.plus ?_ ..)
  exact ⟨⟨Nat.zero_le _, rfl⟩, fun e => absurd e (by simp), show 1 ≤ 8 by decide,
    ⟨h.link.missedAcks.1, nofun⟩, h.link.recoveries⟩

end

end Sys2Proof.Machine
end

section
/-! PROOF. What the operations on one pipe keep of it: selections, frame starts and slots (R25 to R28, R49 to R52, R59, R78
to R95, R107 to R114, R119 to R131). -/

namespace Sys2Proof.Machine

/-- No band waits, as the link is not SELECTING or ACTIVE. -/
theorem PipeState.coherent.no_bands {x : PipeState} (h : x.coherent) (idle : x.lc.state.stops = false) : x.fr.bands = [] := by
  by_contra waiting
  have busy := h.waiting (.inr waiting)
  unfold LinkState.stops at idle
  simp [busy] at idle

/-- The contract in force after a frame start was in force or selected before it. -/
theorem PipeState.of_inForce {x : PipeState} {how : StartKind} {c : Contract} (h : x.inForce how = some c) :
    x.pb.contract = some c ∨ x.pb.selected = some c := by
  unfold PipeState.inForce PipeState.installs at h
  grind

section
variable {x : PipeState} (h : x.sound)
include h

/-! Entry to SELECTING and to ACTIVE. -/

theorem PipeState.sound.selecting (held : x.lc.state = .held) (now : Word) {c : Contract} (range : c.inRange) (n : Word) :
    ({ x with pb := { x.pb with contract := some c, counter := n } }.selecting now c).sound where
  coherent := PipeState.coherent_selecting h.coherent now c n held
  link := by
    refine LinkCtl.bounded.plus ?_ _ _ _
    exact h.link.enter rfl rfl h.link.recoveries (fun _ => h.link.listed (.inl held)) ⟨h.link.missedAcks.1, nofun⟩
  builder := by
    have unselected : x.pb.selected = none := by
      have selected := h.coherent.selected
      have waits := h.coherent.waits
      have runs := h.coherent.runner
      rw [← Option.not_isSome_iff_eq_none]
      grind
    refine ⟨h.builder.offers, ?_, h.builder.nextPlan⟩
    rintro d (e | e)
    · exact Option.some.inj e ▸ range
    · exact nomatch unselected.symm.trans e
  runner := h.runner
  lock := .cleared _ _
  bands := by
    have none : x.fr.bands = [] := h.coherent.no_bands (by rw [held]; rfl)
    show bandsWithin x.fr.bands _
    rw [none]
    exact nofun

/-- A frame ends into SELECTING (R52, R129). -/
theorem PipeState.sound.changingMode {c : Contract} (chosen : x.pb.selected = some c) (now : Word) :
    (x.changingMode now c).sound where
  coherent := PipeState.coherent_changingMode h.coherent now c (by rw [chosen]; rfl)
  link := by
    have active : x.lc.state = .active := by
      have selected := h.coherent.selected
      have waits := h.coherent.waits
      have runs := h.coherent.runner
      grind
    refine LinkCtl.bounded.plus ?_ _ _ _
    exact h.link.enter rfl rfl h.link.recoveries (fun _ => h.link.listed (.inr (.inr active)))
      ⟨h.link.missedAcks.1, nofun⟩
  builder := by
    refine ⟨h.builder.offers, ?_, h.builder.nextPlan⟩
    rintro d (e | e)
    · exact h.builder.contracts d (.inr (chosen.trans e))
    · exact nomatch e
  runner := by
    obtain ⟨plan, slot, aligning, few, bands⟩ := h.runner
    have running : x.fr.state ≠ .aligning := by
      have selected := h.coherent.selected
      have waits := h.coherent.waits
      grind
    refine ⟨nofun, ⟨Nat.zero_le _, fun _ => rfl, nofun⟩, ⟨fun _ => aligning.1 running, aligning.2⟩, ?_, ?_⟩
    · exact (List.length_map ..).trans_le few
    · intro b hb
      obtain ⟨a, mem, rfl⟩ := List.mem_map.1 hb
      exact bands a mem
  lock := .cleared _ _
  bands := by
    intro b hb serving whole
    obtain ⟨a, mem, rfl⟩ := List.mem_map.1 hb
    have serving' : a.serving = none := serving
    simp [serving'] at whole

/-- Entry to ACTIVE under a locked contract (R82). -/
theorem PipeState.sound.aligning (selecting : x.lc.state = .selecting) {c : Contract} (force : x.pb.contract = some c)
    (locked : c.locked = true) (now : Word) {plan : Plan} (burst : plan.startsWithBurst) (short : plan.slots.length ≤ 35) :
    (x.activated now c plan).sound where
  coherent := PipeState.coherent_aligning h.coherent now selecting force locked burst
  link := h.link.enter rfl rfl h.link.recoveries (fun _ => h.link.listed (.inr (.inl selecting)))
    ⟨Nat.zero_le _, fun _ => Nat.zero_le _⟩
  builder := ⟨h.builder.offers, h.builder.contracts, fun pl e => Option.some.inj e ▸ short⟩
  runner := by
    obtain ⟨plan', slot, aligning, bands⟩ := h.runner
    have stopped : x.fr.state = .stopped := h.coherent.runner.2 (by rw [selecting]; nofun)
    have zero : x.fr.slot = 0 := slot.2.1 (by rw [stopped]; nofun)
    unfold PipeState.activated
    dsimp only
    rw [if_pos locked]
    exact ⟨plan', ⟨slot.1, fun _ => zero, nofun⟩, ⟨fun e => absurd rfl e, .inr rfl⟩, bands⟩
  lock := .cleared _ _
  bands := by
    have same : (x.activated now c plan).fr.bands = x.fr.bands := by
      unfold PipeState.activated
      dsimp only
      split <;> rfl
    rw [same]
    exact h.bands

end

/-- A frame starts (R85). -/
theorem PipeState.startable.begun_sound {x : PipeState} {how : StartKind} (start : x.startable how) (link : x.lc.bounded)
    (builder : x.pb.bounded) (few : x.fr.bands.length ≤ 4) (bands : ∀ b ∈ x.fr.bands, b.inRange) (lock : x.lock.bounded)
    (now : Word) (recent : Contract → Option Word) : (x.begun how now recent).sound where
  coherent := PipeState.coherent_begun start now recent
  link := by
    refine LinkCtl.bounded.plus ?_ _ _ _
    exact link.congr rfl rfl rfl rfl rfl
  builder := by
    refine ⟨builder.offers, ?_, nofun⟩
    rintro c (e | e)
    · exact builder.contracts c (PipeState.of_inForce e)
    · have e' : (if (x.installs how).isSome then none else x.pb.selected) = some c := e
      split at e'
      · exact nomatch e'
      · exact builder.contracts c (.inr e')
  runner := by
    refine ⟨builder.nextPlan, ⟨show 1 ≤ 35 by decide, fun e => absurd rfl e, fun pl _ e => ⟨le_rfl, ?_⟩⟩,
      ⟨fun _ => ⟨rfl, rfl⟩, .inl rfl⟩, (List.length_map ..).trans_le few, ?_⟩
    · have burst := start.bursts pl e
      unfold Plan.startsWithBurst at burst
      show 1 ≤ pl.slots.length
      cases slots : pl.slots with
      | nil => rw [slots] at burst; exact nomatch burst
      | cons y ys => exact Nat.succ_pos _
    · intro b hb
      obtain ⟨a, mem, rfl⟩ := List.mem_map.1 hb
      exact bands a mem
  lock := by
    refine lock.started how now (fun c e => builder.contracts c (PipeState.of_inForce e)) ?_ recent
    rintro rfl alone locking c e
    have kept : ¬ (StartKind.next = .next ∧ x.pb.phase = .selected) := by
      rintro ⟨-, picked⟩
      obtain ⟨d, chosen⟩ := Option.isSome_iff_exists.1 (start.selected.2 picked)
      obtain ⟨old, force⟩ := Option.isSome_iff_exists.1 start.force
      rw [(PipeState.inForce_selected picked chosen).1, force] at alone
      exact nomatch alone
    rw [(PipeState.inForce_of kept).2] at e
    have locks := start.lock.2.1 locking
    rw [e] at locks
    exact Option.some.inj locks
  bands := by
    intro b hb serving
    obtain ⟨a, mem, rfl⟩ := List.mem_map.1 hb
    exact nomatch serving

section
variable {x : PipeState} (h : x.sound)
include h

theorem PipeState.sound.begun {how : StartKind} (start : x.startable how) (now : Word) (recent : Contract → Option Word) :
    (x.begun how now recent).sound :=
  start.begun_sound h.link h.builder h.runner.bands.1 h.runner.bands.2 h.lock now recent

/-- Entry to ACTIVE under a contract that is not locked (R82). -/
theorem PipeState.sound.begunEntry (selecting : x.lc.state = .selecting) {c : Contract} (force : x.pb.contract = some c)
    (unlocked : c.locked = false) (now : Word) {plan : Plan} (burst : plan.startsWithBurst)
    (short : plan.slots.length ≤ 35) (recent : Contract → Option Word) :
    ((x.activated now c plan).begun .entry now recent).sound := by
  have bands : (x.activated now c plan).fr.bands = x.fr.bands := by
    unfold PipeState.activated
    dsimp only
    split <;> rfl
  refine (PipeState.startable_entry h.coherent now selecting force unlocked burst).begun_sound ?_ ?_ ?_ ?_ ?_ now recent
  · exact h.link.enter rfl rfl h.link.recoveries (fun _ => h.link.listed (.inr (.inl selecting)))
      ⟨Nat.zero_le _, fun _ => Nat.zero_le _⟩
  · exact ⟨h.builder.offers, h.builder.contracts, fun pl e => Option.some.inj e ▸ short⟩
  · rw [bands]; exact h.runner.bands.1
  · rw [bands]; exact h.runner.bands.2
  · exact .cleared _ _

/-! Pulses. -/

theorem PipeState.sound.pulsed (now : Word) : (x.pulsed now).sound := by
  refine ⟨PipeState.coherent_pulsed h.coherent now, h.link, h.builder, ?_, ?_, ?_⟩
  · obtain ⟨plan, slot, aligning, bands⟩ := h.runner
    unfold PipeState.pulsed
    dsimp only
    split
    next waits => exact ⟨plan, slot, ⟨fun e => absurd waits.1 e, .inl rfl⟩, bands⟩
    next => exact ⟨plan, slot, aligning, bands⟩
  · obtain ⟨counts, phase, trim⟩ := h.lock
    unfold PipeState.pulsed
    dsimp only
    split
    · exact ⟨⟨Nat.zero_le _, Nat.zero_le _⟩, phase, trim⟩
    · exact ⟨counts, phase, trim⟩
  · have same : (x.pulsed now).fr.bands = x.fr.bands := by
      unfold PipeState.pulsed
      dsimp only
      split <;> rfl
    rw [same]
    exact h.bands

/-- The source of a pipe that follows it falls silent (R113). -/
theorem PipeState.sound.sourceLost (following : x.lock.following = true) : { x with lock := x.lock.toHoldover }.sound := by
  have locks : x.lock.state ≠ .notLocking ∧ x.lock.state ≠ .aligning := by
    unfold LockCtl.following at following
    grind
  refine ⟨?_, h.link, h.builder, h.runner, ⟨⟨Nat.zero_le _, Nat.zero_le _⟩, h.lock.phaseError, h.lock.trim⟩, h.bands⟩
  refine PipeState.coherent_congr h.coherent rfl rfl rfl rfl rfl rfl rfl rfl h.coherent.nextPlan h.coherent.waiting ?_
  exact ⟨⟨nofun, fun e => absurd e locks.1⟩, ⟨nofun, fun e => absurd e locks.2⟩⟩

end

end Sys2Proof.Machine
end

section
/-! PROOF. What slots and parked requests keep of a pipe (R39, R49, R59, R78, R89 to R94, R119 to R128). -/

namespace Sys2Proof.Machine

/-- The runner is in a slot that ends with the start of the slot `y`. -/
structure Runner.goesOn (r : Runner) (pl : Plan) (x y : Slot) : Prop where
  running   : r.state = .running
  plan      : r.plan = some pl
  slot      : 1 ≤ r.slot
  current   : r.currentSlot = some x
  following : pl.slots[r.slot]? = some y

theorem Runner.currentSlot_running {r : Runner} {x : Slot} (h : r.currentSlot = some x) : r.state = .running := by
  unfold Runner.currentSlot at h
  grind

theorem State.slotDue_goesOn {s : State} {p : Pipe} {ends starts : SlotKind} (h : s.slotDue p ends starts = true) :
    ∃ pl x y, (s.pipe p).fr.goesOn pl x y ∧ x.kind = ends ∧ y.kind = starts := by
  unfold State.slotDue at h
  dsimp only at h
  split at h
  next x y current following =>
    have kinds := of_decide_eq_true h
    have running := Runner.currentSlot_running current
    cases plan : (s.pipe p).fr.plan with
    | none => unfold Runner.currentSlot at current; rw [running, plan] at current; exact nomatch current
    | some pl =>
      have pos : (s.pipe p).fr.slot ≠ 0 := by
        intro zero
        unfold Runner.currentSlot at current
        rw [running, plan] at current
        simp [zero] at current
      refine ⟨pl, x, y, ⟨running, plan, by omega, current, ?_⟩, kinds.1, kinds.2.1⟩
      unfold Runner.followingSlot at following
      rw [running, plan] at following
      simpa [pos] using following
  next => exact nomatch h

/-- The plan is due in BLANK and TRIM alone of a frame that runs (R61). -/
theorem Runner.planDue_of_slot {r : Runner} {x : Slot} (h : r.currentSlot = some x) :
    r.planDue = decide (x.kind = .blank ∨ x.kind = .trim) := by
  unfold Runner.planDue
  rw [Runner.currentSlot_running h, h]
  simp

theorem Runner.goesOn.nextSlot {r : Runner} {pl : Plan} {x y : Slot} (h : r.goesOn pl x y) :
    { r with slot := r.slot + 1 }.currentSlot = some y := by
  unfold Runner.currentSlot
  dsimp only
  rw [h.running, h.plan]
  simpa using h.following

section
variable {x : PipeState} (h : x.sound)
include h

/-- A slot begins; of BLANK, the next frame is planned (R59). -/
theorem PipeState.sound.inNextSlot {pl : Plan} {a b : Slot} (on : x.fr.goesOn pl a b)
    (due : b.kind = .blank ∨ b.kind = .trim → x.pb.modeChangeWaiting = false → x.pb.nextPlan.isSome = true) :
    x.inNextSlot.sound := by
  have planDue : x.inNextSlot.fr.planDue = decide (b.kind = .blank ∨ b.kind = .trim) :=
    Runner.planDue_of_slot on.nextSlot
  refine ⟨?_, h.link, h.builder, ?_, h.lock, h.bands⟩
  · refine PipeState.coherent_congr h.coherent rfl rfl rfl rfl rfl rfl rfl rfl ?_ h.coherent.waiting ⟨.rfl, .rfl⟩
    rw [planDue]
    exact fun e => due (of_decide_eq_true e)
  · obtain ⟨plan, slot, aligning, bands⟩ := h.runner
    have inside : x.fr.slot < pl.slots.length := (List.getElem?_eq_some_iff.1 on.following).1
    have short := plan pl on.plan
    refine ⟨plan, ⟨show x.fr.slot + 1 ≤ 35 by omega, fun e => absurd on.running e, ?_⟩, aligning, bands⟩
    intro pl' _ e
    rw [Option.some.inj (on.plan.symm.trans e)] at inside
    exact ⟨Nat.succ_pos _, inside⟩

/-- BLANK ends and TRIM starts (R93). -/
theorem PipeState.sound.trimStarts {pl : Plan} {a b : Slot} (on : x.fr.goesOn pl a b) (blank : a.kind = .blank)
    (limit : Option Word) :
    { x with fr := { x.fr with slot := x.fr.slot + 1, trimEnd := limit }, lock := { x.lock with trim := x.trimNow } }.sound := by
  have due : x.fr.planDue = true := by
    rw [Runner.planDue_of_slot on.current, blank]
    rfl
  have next : x.inNextSlot.sound := h.inNextSlot on fun _ => h.coherent.nextPlan due
  obtain ⟨coherent, link, builder, runner, lock, bands⟩ := next
  refine ⟨?_, link, builder, ⟨runner.plan, runner.slot, runner.aligning, runner.bands⟩, ⟨lock.counts, lock.phaseError, ?_⟩,
    bands⟩
  · exact PipeState.coherent_congr coherent rfl rfl rfl rfl rfl rfl rfl rfl coherent.nextPlan coherent.waiting ⟨.rfl, .rfl⟩
  · show -2048 ≤ x.trimNow ∧ x.trimNow ≤ 2048
    unfold PipeState.trimNow
    split
    next c force => exact x.lock.adjustment_range (h.builder.contracts c (.inl force))
    next => decide

/-- A mark goes out on the line pacing output (R88). -/
theorem PipeState.sound.marked (marks : List Word) : { x with fr := { x.fr with lpo := marks } }.sound :=
  ⟨PipeState.coherent_congr h.coherent rfl rfl rfl rfl rfl rfl rfl rfl h.coherent.nextPlan h.coherent.waiting ⟨.rfl, .rfl⟩,
    h.link, h.builder, ⟨h.runner.plan, h.runner.slot, h.runner.aligning, h.runner.bands⟩, h.lock, h.bands⟩

/-- Bands leave the list (R127). -/
theorem PipeState.sound.fewerBands (stay : Band → Bool) :
    { x with fr := { x.fr with bands := x.fr.bands.filter stay } }.sound := by
  have sub : ∀ b ∈ x.fr.bands.filter stay, b ∈ x.fr.bands := fun b hb => (List.mem_filter.1 hb).1
  refine ⟨?_, h.link, h.builder, ⟨h.runner.plan, h.runner.slot, h.runner.aligning, ?_⟩, h.lock, fun b hb => h.bands b (sub b hb)⟩
  · refine PipeState.coherent_congr h.coherent rfl rfl rfl rfl rfl rfl rfl rfl h.coherent.nextPlan ?_ ⟨.rfl, .rfl⟩
    refine fun some => h.coherent.waiting (some.imp_right fun left none => left ?_)
    show x.fr.bands.filter stay = []
    rw [none]
    rfl
  · exact ⟨(List.length_filter_le ..).trans h.runner.bands.1, fun b hb => h.runner.bands.2 b (sub b hb)⟩

/-- The next frame's plan is built (R59). -/
theorem PipeState.sound.planned {plan : Plan} (burst : plan.startsWithBurst) (short : plan.slots.length ≤ 35) :
    { x with pb := { x.pb with nextPlan := some plan } }.sound := by
  refine ⟨?_, h.link, ⟨h.builder.offers, h.builder.contracts, fun pl e => Option.some.inj e ▸ short⟩, h.runner, h.lock, h.bands⟩
  obtain ⟨contract, phase, selected, staged, waits, installed, waiting, runner, plan', nextPlan, bursts, aligning, locking,
    stretch⟩ := h.coherent
  exact ⟨contract, phase, selected, staged, waits, installed, waiting, runner, plan', fun _ _ => rfl,
    fun pl e => Option.some.inj e ▸ burst, aligning, locking, stretch⟩

/-- A staged NEGOTIATE is decided while a BURST runs out (R50). -/
theorem PipeState.sound.selected {pl : Plan} {a b : Slot} (on : x.fr.goesOn pl a b) (burst : a.kind = .burst)
    (phase : x.pb.phase = .staged) {c : Contract} (range : c.inRange) (n : Word) :
    { x with pb := { x.pb with selected := some c, counter := n, phase := .selected } }.sound := by
  have due : x.fr.planDue = false := by
    rw [Runner.planDue_of_slot on.current, burst]
    rfl
  refine ⟨?_, h.link, ⟨h.builder.offers, ?_, h.builder.nextPlan⟩, h.runner, h.lock, h.bands⟩
  · have none : x.pb.negotiate ≠ none := fun e => by
      have := h.coherent.phase.2 e
      rw [phase] at this
      exact nomatch this
    obtain ⟨contract, phase', selected, staged, waits, installed, waiting, runner, plan', nextPlan, bursts, aligning, locking,
      stretch⟩ := h.coherent
    exact ⟨contract, ⟨nofun, fun e => absurd e none⟩, ⟨fun _ => rfl, fun _ => rfl⟩, nofun, fun _ => .inl on.running, nofun,
      waiting, runner, plan', fun e => absurd (due.symm.trans e) (by decide), bursts, aligning, locking, stretch⟩
  · rintro d (e | e)
    · exact h.builder.contracts d (.inl e)
    · exact Option.some.inj e ▸ range

/-- The trim line of a RELAXED frame ends in STRETCH (R94). -/
theorem PipeState.sound.stretches (runs : x.fr.state = .running) (due : x.fr.planDue = true)
    (relaxed : x.pb.contract.map (·.cadence) = some .relaxed) (limit : Word) :
    { x with fr := { x.fr with
      state := .stretch, slot := 0, trimEnd := none, stretchLimit := some limit } }.sound := by
  refine ⟨PipeState.coherent_stretch h.coherent runs due relaxed limit, h.link, h.builder, ?_, h.lock, h.bands⟩
  have still : x.fr.state ≠ .aligning := by rw [runs]; nofun
  exact ⟨h.runner.plan, ⟨Nat.zero_le _, fun _ => rfl, nofun⟩, ⟨fun _ => h.runner.aligning.1 still, h.runner.aligning.2⟩,
    h.runner.bands⟩

/-! Requests that park. -/

theorem PipeState.sound.staged (active : x.lc.state = .active) (free : x.pb.negotiate = none) (r : Parked) :
    { x with pb := { x.pb with negotiate := some r, phase := .staged } }.sound :=
  ⟨PipeState.coherent_staged h.coherent active free r, h.link, ⟨h.builder.offers, h.builder.contracts, h.builder.nextPlan⟩,
    h.runner, h.lock, h.bands⟩

theorem PipeState.sound.framesNow (active : x.lc.state = .active) (r : Parked) :
    { x with fr := { x.fr with frameNow := some r } }.sound :=
  ⟨PipeState.coherent_congr h.coherent rfl rfl rfl rfl rfl rfl rfl rfl h.coherent.nextPlan (fun _ => .inr active)
    ⟨.rfl, .rfl⟩, h.link, h.builder, ⟨h.runner.plan, h.runner.slot, h.runner.aligning, h.runner.bands⟩, h.lock, h.bands⟩

theorem PipeState.sound.pullsIn (flag : Bool) : { x with fr := { x.fr with pullIn := flag } }.sound :=
  ⟨PipeState.coherent_congr h.coherent rfl rfl rfl rfl rfl rfl rfl rfl h.coherent.nextPlan h.coherent.waiting
    ⟨.rfl, .rfl⟩, h.link, h.builder, ⟨h.runner.plan, h.runner.slot, h.runner.aligning, h.runner.bands⟩, h.lock, h.bands⟩

theorem PipeState.sound.moreBands (active : x.lc.state = .active) (room : x.fr.bands.length < 4) {band : Band}
    (range : band.inRange) (lines : ∀ c, x.pb.contract = some c → band.lastLine < c.v) :
    { x with fr := { x.fr with bands := x.fr.bands ++ [band] } }.sound := by
  refine ⟨?_, h.link, h.builder, ⟨h.runner.plan, h.runner.slot, h.runner.aligning, ?_, ?_⟩, h.lock, ?_⟩
  · exact PipeState.coherent_congr h.coherent rfl rfl rfl rfl rfl rfl rfl rfl h.coherent.nextPlan (fun _ => .inr active)
      ⟨.rfl, .rfl⟩
  · rw [List.length_append]
    exact room
  · intro b hb
    rcases List.mem_append.1 hb with old | new
    · exact h.runner.bands.2 b old
    · exact List.mem_singleton.1 new ▸ range
  · intro b hb serving whole c force
    rcases List.mem_append.1 hb with old | new
    · exact h.bands b old serving whole c force
    · exact List.mem_singleton.1 new ▸ lines c force

/-- The offers of a SET_OFFERS replace the pipe's (R39). -/
theorem PipeState.sound.offered {offers : List Offer} (few : offers.length ≤ 7) (range : offers.all Offer.inRange = true)
    (auto : Bool) : { x with pb := { x.pb with offers := offers, autoAdmit := auto } }.sound :=
  ⟨PipeState.coherent_congr h.coherent rfl rfl rfl rfl rfl rfl rfl rfl h.coherent.nextPlan h.coherent.waiting
    ⟨.rfl, .rfl⟩, h.link, ⟨⟨few, range⟩, h.builder.contracts, h.builder.nextPlan⟩, h.runner, h.lock, h.bands⟩

end

end Sys2Proof.Machine
end

section
/-! PROOF. Both pipes sound, and apart (R35, R38, R43, R57, R61, R81, R94, R108 to R110): what the shared operations keep. -/

namespace Sys2Proof.Machine

/-- Both pipes are sound, and do not follow each other (R43). -/
structure State.PipesSound (s : State) : Prop where
  pipes : ∀ p, (s.pipe p).sound
  apart : s.peersApart

/-- The pipes do not follow each other unless both hold a LOCKED_PEER contract. -/
theorem State.peersApart_of {s : State} (p : Pipe)
    (h : (s.pipe p).pb.holdsPeer → ¬ (s.pipe (otherPipe p)).pb.holdsPeer) : s.peersApart := by
  rintro ⟨p0, p1⟩
  cases p with
  | p0 => exact h p0 p1
  | p1 => exact h p1 p0

/-- A selection follows a pipe that does not follow (R43). -/
theorem State.lockCondition_peer {s : State} {p : Pipe} {o : Offer} (follows : o.cadence = .lockedPeer)
    (h : s.lockCondition p o = true) : ¬ (s.pipe (otherPipe p)).pb.holdsPeer := by
  unfold State.lockCondition at h
  rw [follows] at h
  simp only [Bool.and_eq_true] at h
  obtain ⟨⟨-, force⟩, selected⟩ := h
  rintro (peer | peer)
  · obtain ⟨c, contract, cadence⟩ := Option.map_eq_some_iff.1 peer
    rw [contract] at force
    simp [Contract.followable, cadence] at force
  · obtain ⟨c, contract, cadence⟩ := Option.map_eq_some_iff.1 peer
    rw [contract] at selected
    simp [Contract.followable, cadence] at selected

/-- A selection under the pipe's modes (R41 to R46). -/
theorem State.selection_apart {s : State} {p : Pipe} (link : (s.pipe p).lc.bounded) (builder : (s.pipe p).pb.bounded)
    (up : (s.pipe p).lc.state = .held ∨ (s.pipe p).lc.state = .selecting ∨ (s.pipe p).lc.state = .active) :
    (s.selection p).inRange ∧ ((s.selection p).cadence = .lockedPeer → ¬ (s.pipe (otherPipe p)).pb.holdsPeer) := by
  obtain ⟨range, follows⟩ := State.selection_spec builder.offers link.modes (link.listed up)
  refine ⟨range, fun peer => ?_⟩
  obtain ⟨o, cadence, lock⟩ := follows peer
  exact State.lockCondition_peer cadence lock

theorem PipeState.holdsPeer_of_begun {x : PipeState} {how : StartKind} {now : Word} {recent : Contract → Option Word}
    (h : (x.begun how now recent).pb.holdsPeer) : x.pb.holdsPeer := by
  rcases h with force | kept
  · exact PipeState.holdsPeer_of_inForce force
  · have kept' : (if (x.installs how).isSome then none else x.pb.selected).map (·.cadence) = some .lockedPeer := kept
    split at kept'
    · exact nomatch kept'
    · exact .inr kept'

/-- A pulse that starts frame 1 finds the runner in ALIGNING, where it is until that start. -/
theorem PipeState.pulsed_waits {x : PipeState} (h : x.startsOnPulse = true) (now : Word) :
    (x.pulsed now).fr.state = .aligning := by
  have waits := (of_decide_eq_true h).1
  unfold PipeState.pulsed
  dsimp only
  split
  · exact waits
  · exact waits

/-- What a link that leaves its state keeps. -/
theorem PipeState.left_kept (x : PipeState) : x.left.lc.modes = x.lc.modes ∧ x.left.lc.probeCount = x.lc.probeCount ∧
    x.left.lc.missedAcks = x.lc.missedAcks ∧ x.left.lc.recoveryCount = x.lc.recoveryCount := by
  unfold PipeState.left
  split
  · exact ⟨rfl, rfl, rfl, rfl⟩
  · exact ⟨rfl, rfl, rfl, rfl⟩

namespace State.PipesSound
variable {s t : State}

theorem of_pipe (h : s.PipesSound) (same : ∀ p, t.pipe p = s.pipe p) : t.PipesSound :=
  ⟨fun p => same p ▸ h.pipes p, State.peersApart_congr h.apart fun p => by rw [same p]; exact ⟨rfl, rfl⟩⟩

theorem of_pipes (h : s.PipesSound) (same : t.pipes = s.pipes) : t.PipesSound :=
  h.of_pipe fun p => congrArg (·.get p) same

/-- Fault sets, versions and what lies outside the pipes play no part. -/
theorem of_bare (h : s.PipesSound) (same : t.bare = s.bare) : t.PipesSound := by
  have blocks : ∀ p, (t.pipe p).lc = (s.pipe p).lc ∧ (t.pipe p).pb = (s.pipe p).pb ∧ (t.pipe p).fr = (s.pipe p).fr ∧
      (t.pipe p).lock = (s.pipe p).lock
    | .p0 => ⟨congrArg (·.pipes.p0.lc) same, congrArg (·.pipes.p0.pb) same, congrArg (·.pipes.p0.fr) same,
      congrArg (·.pipes.p0.lock) same⟩
    | .p1 => ⟨congrArg (·.pipes.p1.lc) same, congrArg (·.pipes.p1.pb) same, congrArg (·.pipes.p1.fr) same,
      congrArg (·.pipes.p1.lock) same⟩
  refine ⟨fun p => ?_, State.peersApart_congr h.apart fun p => ?_⟩
  · obtain ⟨lc, pb, fr, lock⟩ := blocks p
    exact (h.pipes p).alike lc pb fr lock
  · rw [(blocks p).2.1]
    exact ⟨rfl, rfl⟩

theorem published (h : t.PipesSound) : (publish s t).PipesSound := h.of_bare (publish_bare s t)

theorem finish {x : Handing} (h : x.1.PipesSound) : x.finish.PipesSound := by
  obtain ⟨q, n, e, -⟩ := x.1.handOverGroups_spec x.2
  refine h.of_pipes ?_
  unfold Handing.finish
  rw [e]

theorem serveCompletions (h : s.PipesSound) : s.serveCompletions.PipesSound := by
  rw [State.serveCompletions_eq]
  exact h.of_pipes rfl

/-- One pipe changes; it does not come to follow a pipe that follows. -/
theorem replaced (h : s.PipesSound) (p : Pipe) (others : ∀ q, q ≠ p → t.pipe q = s.pipe q) (sound : (t.pipe p).sound)
    (peer : (t.pipe p).pb.holdsPeer → (s.pipe p).pb.holdsPeer ∨ ¬ (s.pipe (otherPipe p)).pb.holdsPeer) : t.PipesSound := by
  refine ⟨fun q => ?_, State.peersApart_of p fun holds => ?_⟩
  · by_cases e : q = p
    · exact e ▸ sound
    · exact others q e ▸ h.pipes q
  · rw [others _ (otherPipe_ne p)]
    rcases peer holds with before | free
    · exact fun other => State.peersApart_not h.apart p other before
    · exact free

theorem withPipe (h : s.PipesSound) {p : Pipe} {x : PipeState} (sound : x.sound)
    (peer : x.pb.holdsPeer → (s.pipe p).pb.holdsPeer ∨ ¬ (s.pipe (otherPipe p)).pb.holdsPeer) :
    (s.withPipe p x).PipesSound :=
  h.replaced p (fun _ other => s.withPipe_other x other) (by rwa [State.withPipe_pipe]) (by rwa [State.withPipe_pipe])

/-- One pipe changes, and its contracts stay. -/
theorem modPipe (h : s.PipesSound) {p : Pipe} {g : PipeState → PipeState} (sound : (g (s.pipe p)).sound)
    (contract : (g (s.pipe p)).pb.contract = (s.pipe p).pb.contract := by rfl)
    (selected : (g (s.pipe p)).pb.selected = (s.pipe p).pb.selected := by rfl) : (s.modPipe p g).PipesSound := by
  refine h.withPipe sound fun holds => .inl ?_
  unfold PlanBuilder.holdsPeer at holds ⊢
  rwa [contract, selected] at holds

theorem modLc (h : s.PipesSound) {p : Pipe} {g : LinkCtl → LinkCtl}
    (sound : { s.pipe p with lc := g (s.pipe p).lc }.sound) : (s.modLc p g).PipesSound := h.modPipe sound

theorem modFr (h : s.PipesSound) {p : Pipe} {g : Runner → Runner}
    (sound : { s.pipe p with fr := g (s.pipe p).fr }.sound) : (s.modFr p g).PipesSound := h.modPipe sound

theorem sendMessage (h : s.PipesSound) (p : Pipe) (m : TxMessage) (supervised : Bool) :
    (s.sendMessage p m supervised).PipesSound := by
  rw [State.sendMessage_eq]
  exact h.withPipe ((h.pipes p).relink _ (LinkCtl.plus_state ..) ((h.pipes p).link.plus ..)) .inl

theorem enterProbing (h : s.PipesSound) {p : Pipe} (idle : (s.pipe p).lc.state.stops = false) :
    (s.enterProbing p).PipesSound := by
  rw [State.enterProbing_eq]
  exact (h.withPipe ((h.pipes p).probing idle s.time) .inl).of_pipes rfl

theorem beginAdmission (h : s.PipesSound) {p : Pipe} (held : (s.pipe p).lc.state = .held) :
    (s.beginAdmission p).PipesSound := by
  obtain ⟨range, apart⟩ := State.selection_apart (h.pipes p).link (h.pipes p).builder (.inl held)
  rw [State.beginAdmission_eq]
  refine of_pipes (s := s.admitting p) (h.withPipe ((h.pipes p).selecting held s.time range _) ?_) rfl
  rintro (peer | peer)
  · exact .inr (apart (Option.some.inj peer))
  · exact .inl (.inr peer)

/-- A link leaves its state for OFF or RECOVERY. -/
theorem leaving (h : s.PipesSound) {p : Pipe} {lc : LinkCtl} {faults : PipeFaults}
    (self : t.pipe p = { (s.pipe p).left with lc := lc, faults := faults }) (others : ∀ q, q ≠ p → t.pipe q = s.pipe q)
    (still : lc.state.stops = false) (bounded : lc.bounded) : t.PipesSound := by
  refine h.replaced p others ?_ fun holds => .inl ?_
  · rw [self]
    exact ((h.pipes p).left lc still bounded).alike rfl rfl rfl rfl
  · rw [self] at holds
    unfold PipeState.left at holds
    split at holds
    · rcases holds with e | e <;> exact nomatch e
    · exact holds

theorem left_bounded {x : PipeState} (h : x.lc.bounded) : x.left.lc.bounded := by
  obtain ⟨modes, probes, misses, recoveries⟩ := x.left_kept
  exact h.congr x.left_link modes probes misses recoveries

theorem enterRecovery (h : s.PipesSound) (safe : s.bankSafe) (p : Pipe) (why : StopReason) :
    (s.enterRecovery p why).1.PipesSound := by
  have self : (s.recovering p why).pipe p = _ := State.withPipe_pipe _ p _
  have others : ∀ q, q ≠ p → (s.recovering p why).pipe q = s.pipe q := fun q other =>
    (State.withPipe_other _ _ other).trans (s.leaving_other other)
  rw [State.enterRecovery_fields safe]
  rw [s.leaving_pipe p] at self
  have left := left_bounded (h.pipes p).link
  exact of_pipes (s := s.recovering p why) (h.leaving self others rfl
    (left.enter rfl rfl (min_le_left ..) nofun ⟨left.missedAcks.1, nofun⟩)) rfl

theorem enterOff (h : s.PipesSound) {p : Pipe} (safe : (s.pipe p).lc.state.stops = true → s.bankSafe) (why : StopReason) :
    (s.enterOff p why).1.PipesSound := by
  have others : ∀ q, q ≠ p → (s.turningOff p why).pipe q = s.pipe q := fun q other =>
    (State.withPipe_other _ _ other).trans (s.leaving_other other)
  rw [State.enterOff_fields safe]
  have left := left_bounded (h.pipes p).link
  exact of_pipes (s := s.turningOff p why) (h.leaving (s.turningOff_pipe p why) others rfl
    (left.enter rfl rfl left.recoveries (by simp) ⟨left.missedAcks.1, nofun⟩)) rfl

/-- The third miss in a row ends ACTIVE, so that a link that stays has missed two at most (R30). -/
theorem missFrame (h : s.PipesSound) (safe : s.bankSafe) {p : Pipe} (active : (s.pipe p).lc.state = .active) :
    (s.missFrame p).1.PipesSound := by
  have pipe := s.missing_pipe p
  have others : ∀ q, q ≠ p → (s.missing p).pipe q = s.pipe q := fun q other => by
    rw [State.missing_fields]
    exact s.withPipe_other _ other
  have link := (h.pipes p).link
  rw [State.missFrame_eq, pipe]
  split
  next third =>
    have safe' : (s.missing p).bankSafe := by
      rw [State.missing_fields]
      exact safe
    rw [State.enterRecovery_fields safe']
    have others' : ∀ q, q ≠ p → ((s.missing p).recovering p .ackMissed).pipe q = s.pipe q := fun q other =>
      ((State.withPipe_other _ _ other).trans ((s.missing p).leaving_other other)).trans (others q other)
    have self : ((s.missing p).recovering p .ackMissed).pipe p = _ := State.withPipe_pipe _ p _
    have left : (s.pipe p).missed.left = { (s.pipe p).left with
        lc := (s.pipe p).missed.left.lc, faults := (s.pipe p).missed.faults } := by
      have stops : (s.pipe p).missed.lc.state.stops = true := congrArg LinkState.stops active
      have stops' : (s.pipe p).lc.state.stops = true := congrArg LinkState.stops active
      unfold PipeState.left
      rw [if_pos stops, if_pos stops']
      rfl
    rw [(s.missing p).leaving_pipe p, pipe, left] at self
    obtain ⟨modes, probes, misses, -⟩ := (s.pipe p).missed.left_kept
    have two := link.missedAcks.2 active
    exact of_pipes (s := (s.missing p).recovering p .ackMissed) (h.leaving self others' rfl
      (link.enter modes probes (min_le_left ..) nofun ⟨misses.trans_le (Nat.succ_le_succ two), nofun⟩)) rfl
  next fewer =>
    refine h.replaced p others ?_ fun holds => .inl ?_
    · rw [pipe]
      have counted : (s.pipe p).missed.lc.missedAcks ≤ 2 := by omega
      exact ((h.pipes p).relink (s.pipe p).missed.lc rfl (link.enter rfl rfl link.recoveries link.listed
        ⟨counted.trans (by decide), fun _ => counted⟩)).alike rfl rfl rfl rfl
    · rw [pipe] at holds
      exact holds

/-! Frame starts (R83 to R87, R107). -/

theorem begunAlone (h : s.PipesSound) {p : Pipe} {how : StartKind} (start : (s.pipe p).startable how) :
    (s.begunAlone p how).PipesSound := by
  refine of_pipes (s := s.withPipe p _) (h.withPipe ((h.pipes p).begun start s.time (s.recentPulse p)) fun holds => .inl ?_) rfl
  exact PipeState.holdsPeer_of_begun holds

/-- A frame starts in a state whose other pipe is sound. -/
theorem begun_of {p : Pipe} {how : StartKind} (self : (s.begunAlone p how).PipesSound) : (s.begun p how).PipesSound := by
  have other : (s.begunAlone p how).pipe (otherPipe p) = s.pipe (otherPipe p) :=
    State.withPipe_other s _ (otherPipe_ne p)
  have pulsed : ((s.begunAlone p how).withPipe (otherPipe p) ((s.pipe (otherPipe p)).pulsed s.time)).PipesSound := by
    refine self.withPipe ?_ fun holds => .inl ?_
    · exact other ▸ (self.pipes (otherPipe p)).pulsed s.time
    · rw [other]; exact holds
  unfold State.begun
  dsimp only
  split
  · split
    next starts =>
      refine pulsed.begunAlone ?_
      have coherent := (pulsed.pipes (otherPipe p)).coherent
      rw [State.withPipe_pipe] at coherent ⊢
      exact PipeState.startable_aligning coherent (PipeState.pulsed_waits starts s.time) (.inl rfl)
    next => exact pulsed
  · exact self

end State.PipesSound

end Sys2Proof.Machine
end

section
/-! PROOF. Both pipes sound, and apart: frame starts, slots and plan points (R50, R59, R82 to R95, R107). -/

namespace Sys2Proof.Machine

theorem eq_otherPipe {p q : Pipe} (h : q ≠ p) : q = otherPipe p := by
  cases p <;> cases q <;> simp_all [otherPipe]

/-- A runner in ALIGNING whose frame 1 a reference pulse may start (R83). -/
def PipeState.awaitsRef (x : PipeState) : Prop := x.fr.state = .aligning ∧ x.follows .lockedRef = true

theorem PipeState.follows_unique {x : PipeState} {c d : Cadence} (h : x.follows c = true) (ne : c ≠ d) :
    x.follows d = false := by
  unfold PipeState.follows at h ⊢
  rw [of_decide_eq_true h]
  exact decide_eq_false fun e => ne (Option.some.inj e)

/-- A pipe that does not follow the one that starts a frame stays as it was. -/
theorem State.begun_unfollowed {s : State} {p : Pipe} (h : (s.pipe (otherPipe p)).follows .lockedPeer = false)
    (how : StartKind) : (s.begun p how).pipe (otherPipe p) = s.pipe (otherPipe p) := by
  unfold State.begun
  dsimp only
  rw [if_neg (by rw [h]; decide)]
  exact State.withPipe_other s _ (otherPipe_ne p)

namespace State.PipesSound
variable {s : State}

theorem startFrame (h : s.PipesSound) {p : Pipe} {how : StartKind} (start : (s.pipe p).startable how) :
    (s.startFrame p how).1.PipesSound := by
  rw [(s.startFrame_eq p how h.apart).1]
  exact (begun_of (h.begunAlone start)).of_pipes rfl

theorem startAligned (h : s.PipesSound) {p : Pipe} (waits : (s.pipe p).fr.state = .aligning) {how : StartKind}
    (kind : how = .aligned ∨ how = .deadline) : (s.startFrame p how).1.PipesSound :=
  h.startFrame (PipeState.startable_aligning (h.pipes p).coherent waits kind)

theorem startBoth {ps : List Pipe} (nodup : ps.Nodup) : ∀ {s : State}, s.PipesSound →
    (∀ p ∈ ps, (s.pipe p).awaitsRef) → (s.startBoth ps).1.PipesSound := by
  induction ps with
  | nil => exact fun h _ => h
  | cons p ps ih =>
    intro s h waits
    obtain ⟨fresh, rest⟩ := List.nodup_cons.1 nodup
    have first := waits p (List.mem_cons_self ..)
    refine ih rest (h.startAligned first.1 (.inl rfl)) fun q hq => ?_
    have other : q = otherPipe p := eq_otherPipe fun e => fresh (e ▸ hq)
    have before := waits q (List.mem_cons_of_mem _ hq)
    subst other
    have same : ((s.startFrame p .aligned).1.pipe (otherPipe p)) = s.pipe (otherPipe p) := by
      rw [(s.startFrame_eq p .aligned h.apart).1]
      exact State.begun_unfollowed (PipeState.follows_unique before.2 (by decide)) _
    rw [same]
    exact before

theorem takePulse (h : s.PipesSound) (p : Pipe) : (s.takePulse p).1.PipesSound :=
  h.replaced p (fun _ other => s.takePulse_other other) (by rw [s.takePulse_pipe]; exact (h.pipes p).pulsed _)
    (by rw [s.takePulse_pipe]; exact .inl)

theorem takeRefPulse (h : s.PipesSound) (p : Pipe) : (s.takeRefPulse p).1.PipesSound := by
  unfold State.takeRefPulse
  split
  · exact h.takePulse p
  · exact h

end State.PipesSound

theorem State.takeRefPulse_other (s : State) {p q : Pipe} (h : q ≠ p) : (s.takeRefPulse p).1.pipe q = s.pipe q := by
  unfold State.takeRefPulse
  split
  · exact s.takePulse_other h
  · rfl

theorem State.takeRefPulse_starts {s : State} {p : Pipe} (h : (s.takeRefPulse p).2 = true) :
    ((s.takeRefPulse p).1.pipe p).awaitsRef := by
  unfold State.takeRefPulse at h ⊢
  split at h
  next follows =>
    rw [if_pos follows, s.takePulse_pipe]
    rw [State.takePulse_eq] at h
    exact ⟨PipeState.pulsed_waits h s.time, follows⟩
  next => exact nomatch h

namespace State.PipesSound
variable {s : State}

theorem refPulse (h : s.PipesSound) : s.refPulse.1.PipesSound := by
  unfold State.refPulse
  dsimp only
  generalize ht : (s.modRef fun r => { r with lastPulse := some s.time }).pulsePins .reference = t
  have first : t.PipesSound := h.of_pipes (by rw [← ht]; rfl)
  have sound := (first.takeRefPulse .p0).takeRefPulse .p1
  have p0 : ((t.takeRefPulse .p0).1.takeRefPulse .p1).1.pipe .p0 = (t.takeRefPulse .p0).1.pipe .p0 :=
    State.takeRefPulse_other _ (by decide)
  have starts0 := fun e => State.takeRefPulse_starts (s := t) (p := .p0) e
  have starts1 := fun e => State.takeRefPulse_starts (s := (t.takeRefPulse .p0).1) (p := .p1) e
  rw [← p0] at starts0
  split
  next => exact sound
  next one _ => exact sound.startAligned (starts0 one).1 (.inl rfl)
  next _ two => exact sound.startAligned (starts1 two).1 (.inl rfl)
  next one two =>
    have perm := permuteBy_perm 2 (Config.pulseOrder ((t.takeRefPulse .p0).1.takeRefPulse .p1).1.draw.1) [Pipe.p0, Pipe.p1]
    refine startBoth (perm.nodup_iff.2 (by decide)) (sound.of_pipes rfl) fun p _ => ?_
    cases p
    · exact starts0 one
    · exact starts1 two

/-- The link enters ACTIVE (R28, R82). -/
theorem enterActive (h : s.PipesSound) {p : Pipe} {c : Contract} (selecting : (s.pipe p).lc.state = .selecting)
    (force : (s.pipe p).pb.contract = some c) : (s.enterActive p c).1.PipesSound := by
  have pipe := h.pipes p
  obtain ⟨short, burst⟩ := buildPlan_spec (pipe.builder.contracts c (.inl force)).windows.1 1 (s.quietOf p).1 (s.quietOf p).2
  have self : (s.activating p c).pipe p = (s.pipe p).activated s.time c _ := s.withPipe_pipe p _
  have others : ∀ q, q ≠ p → (s.activating p c).pipe q = s.pipe q := fun q other => s.withPipe_other _ other
  rw [State.enterActive_eq]
  dsimp only
  split
  next locked =>
    refine of_pipes (s := s.activating p c) (h.replaced p others ?_ fun holds => .inl ?_) rfl
    · rw [self]
      exact pipe.aligning selecting force locked s.time burst short
    · rw [self] at holds
      exact holds
  next unlocked =>
    have apart : ((s.activating p c).noted s).peersApart := State.peersApart_congr h.apart fun q => by
      by_cases e : q = p
      · subst e
        exact ⟨congrArg (·.pb.contract) self, congrArg (·.pb.selected) self⟩
      · have same := others q e
        exact ⟨congrArg (·.pb.contract) same, congrArg (·.pb.selected) same⟩
    rw [(State.startFrame_eq _ p .entry apart).1]
    refine of_pipes (s := ((s.activating p c).noted s).begun p .entry) (begun_of ?_) rfl
    refine h.replaced p (fun q other => ?_) ?_ fun holds => .inl ?_
    · exact (State.withPipe_other _ _ other).trans (others q other)
    · have begun : (((s.activating p c).noted s).begunAlone p .entry).pipe p = _ := State.withPipe_pipe _ p _
      rw [begun, show ((s.activating p c).noted s).pipe p = _ from self]
      exact pipe.begunEntry selecting force (by simpa using unlocked) s.time burst short _
    · have begun : (((s.activating p c).noted s).begunAlone p .entry).pipe p = _ := State.withPipe_pipe _ p _
      rw [begun, show ((s.activating p c).noted s).pipe p = _ from self] at holds
      exact PipeState.holdsPeer_of_begun (x := (s.pipe p).activated s.time c _) holds

/-- A frame ends (R94, R95). -/
theorem endFrame (h : s.PipesSound) {p : Pipe} (runs : (s.pipe p).fr.state = .running ∨ (s.pipe p).fr.state = .stretch)
    (due : (s.pipe p).fr.planDue = true) : (s.endFrame p).1.PipesSound := by
  have pipe := h.pipes p
  have next : (s.pipe p).pb.modeChangeWaiting = false → (s.startFrame p .next).1.PipesSound := fun still =>
    h.startFrame (PipeState.startable_next pipe.coherent runs due still)
  unfold State.endFrame
  split
  next c chosen =>
    split
    next =>
      rw [State.endIntoSelecting_eq]
      refine of_pipes (s := s.withPipe p ((s.pipe p).changingMode s.time c)) (h.withPipe (pipe.changingMode chosen s.time) ?_) rfl
      rintro (peer | peer)
      · exact .inl (.inr (by rw [chosen]; exact peer))
      · exact nomatch peer
    next still => exact next (by simpa using still)
  next none =>
    refine next ?_
    unfold PlanBuilder.modeChangeWaiting
    rw [none]

end State.PipesSound

end Sys2Proof.Machine
end

section
/-! PROOF. Both pipes sound, and apart: the events of a pipe (R18 to R33, R78 to R95, R113). -/

namespace Sys2Proof.Machine

theorem PlanBuilder.planSource_held {b : PlanBuilder} {c : Contract} (h : b.planSource = some c) :
    b.contract = some c ∨ b.selected = some c := by
  unfold PlanBuilder.planSource at h
  grind

theorem PlanBuilder.planSource_none {b : PlanBuilder} (h : b.planSource = none) (force : b.contract.isSome = true) :
    b.modeChangeWaiting = true := by
  unfold PlanBuilder.planSource at h
  grind

theorem State.raisePipeFault_fr (s : State) (p : Pipe) (f : PipeFault) :
    ((s.raisePipeFault p f).pipe p).fr = (s.pipe p).fr := by
  rw [State.raisePipeFault_eq]
  cases p <;> rfl

/-- A burst completion moves nothing of the runner but the bands (R127, R128). -/
theorem State.slotCompleted_fr (s : State) (p : Pipe) (slot : Option Slot) : ∃ stay,
    ((s.slotCompleted p slot).1.pipe p).fr = { (s.pipe p).fr with bands := (s.pipe p).fr.bands.filter stay } := by
  unfold State.slotCompleted
  split
  next first count =>
    refine ⟨fun b => !b.satisfiedBy (s.pipe p).fr.frameNumber (((s.pipe p).fr.plan.map (·.v)).getD 0) first count, ?_⟩
    unfold State.burstCompleted
    dsimp only
    split
    · rw [State.raisePipeFault_fr, State.modFr_pipe]
    · rw [State.modFr_pipe]
  next => exact ⟨fun _ => true, by simp⟩

theorem State.slotCompleted_goesOn {s : State} {p : Pipe} {pl : Plan} {a b : Slot} (on : (s.pipe p).fr.goesOn pl a b)
    (slot : Option Slot) : ((s.slotCompleted p slot).1.pipe p).fr.goesOn pl a b := by
  obtain ⟨stay, fr⟩ := s.slotCompleted_fr p slot
  rw [fr]
  exact ⟨on.running, on.plan, on.slot, on.current, on.following⟩

namespace State.PipesSound
variable {s : State} (h : s.PipesSound)
include h

theorem raisePipeFault (p : Pipe) (f : PipeFault) : (s.raisePipeFault p f).PipesSound := by
  rw [State.raisePipeFault_eq]
  exact of_pipe (s := s.withPipe p { s.pipe p with faults := (s.pipe p).faults.put f })
    (h.withPipe ((h.pipes p).alike rfl rfl rfl rfl) .inl) fun _ => rfl

theorem slotCompleted (p : Pipe) (slot : Option Slot) : (s.slotCompleted p slot).1.PipesSound := by
  unfold State.slotCompleted
  split
  next first count =>
    unfold State.burstCompleted
    dsimp only
    split
    · exact raisePipeFault (h.modFr ((h.pipes p).fewerBands _)) p _
    · exact h.modFr ((h.pipes p).fewerBands _)
  next => exact h

end State.PipesSound

theorem State.makePlan_eq (s : State) (p : Pipe) (n : Word) (c : Contract) :
    s.makePlan p n c = s.planned p (buildPlan n c (s.quietOf p).1 (s.quietOf p).2) := by cases p <;> rfl

/-- A state in which a slot of pipe `p` has begun out of `x`, and the Plan Builder is still to follow. -/
structure State.Advanced (s : State) (p : Pipe) (x : PipeState) : Prop where
  self   : s.pipe p = x.inNextSlot
  sound  : x.sound
  others : ∀ q, q ≠ p → (s.pipe q).sound
  apart  : s.peersApart

namespace State.Advanced
variable {s t : State} {p : Pipe} {x y : PipeState}

theorem of_nextSlot (h : s.PipesSound) (p : Pipe) : (s.nextSlot p).Advanced p (s.pipe p) where
  self := State.modFr_pipe ..
  sound := h.pipes p
  others q other := by
    rw [eq_otherPipe other]
    exact State.modFr_pipe_other s p _ ▸ h.pipes (otherPipe p)
  apart := State.peersApart_congr h.apart fun q => by cases p <;> cases q <;> exact ⟨rfl, rfl⟩

/-- The Plan Builder goes on, and does not come to follow a pipe that follows. -/
theorem goesOn (h : s.Advanced p x) (others : ∀ q, q ≠ p → t.pipe q = s.pipe q) (self : t.pipe p = y.inNextSlot)
    (sound : y.sound) (peer : y.pb.holdsPeer → x.pb.holdsPeer ∨ ¬ (s.pipe (otherPipe p)).pb.holdsPeer) :
    t.Advanced p y where
  self := self
  sound := sound
  others q other := others q other ▸ h.others q other
  apart := State.peersApart_of p fun holds => by
    rw [others _ (otherPipe_ne p)]
    rw [self] at holds
    rcases peer holds with before | free
    · exact fun other => State.peersApart_not h.apart p other (by rw [h.self]; exact before)
    · exact free

theorem pipesSound (h : s.Advanced p x) {pl : Plan} {a b : Slot} (on : x.fr.goesOn pl a b)
    (due : b.kind = .blank ∨ b.kind = .trim → x.pb.modeChangeWaiting = false → x.pb.nextPlan.isSome = true) :
    s.PipesSound := by
  refine ⟨fun q => ?_, h.apart⟩
  by_cases e : q = p
  · subst e
    rw [h.self]
    exact h.sound.inNextSlot on due
  · exact h.others q e

/-- The staged selection of a plan point (R50). -/
theorem stagedSelection (h : s.Advanced p x) {pl : Plan} {a b : Slot} (on : x.fr.goesOn pl a b) (burst : a.kind = .burst) :
    ∃ y, (s.stagedSelection p).Advanced p y ∧ y.fr = x.fr := by
  unfold State.stagedSelection
  split
  next staged =>
    have pb : (s.pipe p).pb = x.pb := by rw [h.self]; rfl
    have lc : (s.pipe p).lc = x.lc := by rw [h.self]; rfl
    have phase : x.pb.phase = .staged := pb ▸ staged
    obtain ⟨range, apart⟩ := State.selection_apart (lc ▸ h.sound.link) (pb ▸ h.sound.builder)
      (.inr (.inr (lc ▸ h.sound.coherent.staged phase)))
    refine ⟨_, h.goesOn (fun q other => ?_) ?_ (h.sound.selected on burst phase range (s.selection p).number) ?_, rfl⟩
    · rw [eq_otherPipe other]
      exact State.modPb_pipe_other ..
    · rw [State.modPb_pipe, h.self]
      rfl
    · rintro (peer | peer)
      · exact .inl (.inl peer)
      · exact .inr (apart (Option.some.inj peer))
  next => exact ⟨x, h, rfl⟩

end State.Advanced

namespace State.PipesSound
variable {s : State} (h : s.PipesSound)
include h

/-- The plan point: the next frame of the pipe is planned, unless a mode change waits (R59). -/
theorem planPoint {p : Pipe} {pl : Plan} {a b : Slot} (on : (s.pipe p).fr.goesOn pl a b) (burst : a.kind = .burst) :
    ((s.nextSlot p).planPoint p).PipesSound := by
  obtain ⟨y, advanced, fr⟩ := (State.Advanced.of_nextSlot h p).stagedSelection on burst
  rw [← fr] at on
  unfold State.planPoint
  generalize (s.nextSlot p).stagedSelection p = t at advanced
  have pb : (t.pipe p).pb = y.pb := by rw [advanced.self]; rfl
  dsimp only
  split
  next c source =>
    rw [pb] at source
    have range := advanced.sound.builder.contracts c (PlanBuilder.planSource_held source)
    obtain ⟨short, begins⟩ := buildPlan_spec range.windows.1 ((t.pipe p).fr.frameNumber + 1) (t.quietOf p).1 (t.quietOf p).2
    rw [State.makePlan_eq]
    generalize buildPlan _ _ _ _ = plan at short begins ⊢
    have next : (t.planned p plan).Advanced p { y with pb := { y.pb with nextPlan := some plan } } :=
      advanced.goesOn (fun q other => t.withPipe_other _ other)
        ((t.withPipe_pipe p _).trans (by rw [advanced.self]; rfl)) (advanced.sound.planned begins short) .inl
    exact next.pipesSound on fun _ _ => rfl
  next source =>
    rw [pb] at source
    refine advanced.pipesSound on fun _ still => absurd still ?_
    have active : y.lc.state = .active := by
      by_contra other
      exact nomatch on.running.symm.trans (advanced.sound.coherent.runner.2 other)
    rw [PlanBuilder.planSource_none source (advanced.sound.coherent.contract.2 (.inr active))]
    decide

end State.PipesSound

end Sys2Proof.Machine
end

section
/-! PROOF. Both pipes sound, and apart: what the panel sends and a pipe's own events (R18 to R33, R78 to R95, R113). -/

namespace Sys2Proof.Machine

theorem modesValid {modes : List ModeRecord} (h : validModes modes = true) :
    modes ≠ [] ∧ modes.length ≤ 7 ∧ modes.all modeValid = true := by
  obtain ⟨some, few, valid⟩ := (validModes_iff modes).1 h
  refine ⟨fun e => by simp [e] at some, few, List.all_eq_true.2 fun m hm => (modeValid_iff m).2 ?_⟩
  obtain ⟨a, b, c, d, e, f, g⟩ := valid m hm
  exact ⟨a, b, c, e, f, d, g⟩

namespace State.PipesSound
variable {s : State} (h : s.PipesSound)
include h

/-- The link stays in its state, and what its bounds name stays. -/
theorem relink {p : Pipe} {g : LinkCtl → LinkCtl} (state : (g (s.pipe p).lc).state = (s.pipe p).lc.state := by rfl)
    (modes : (g (s.pipe p).lc).modes = (s.pipe p).lc.modes := by rfl)
    (probes : (g (s.pipe p).lc).probeCount = (s.pipe p).lc.probeCount := by rfl)
    (misses : (g (s.pipe p).lc).missedAcks = (s.pipe p).lc.missedAcks := by rfl)
    (recoveries : (g (s.pipe p).lc).recoveryCount = (s.pipe p).lc.recoveryCount := by rfl) : (s.modLc p g).PipesSound :=
  h.modLc ((h.pipes p).relink _ state ((h.pipes p).link.congr state modes probes misses recoveries))

/-! Messages of the panel (R18 to R31). -/

theorem receiveList (p : Pipe) (modes : List ModeRecord) : (s.receiveList p modes).PipesSound := by
  have pipe := h.pipes p
  unfold State.receiveList
  split
  next => exact h
  next state =>
    have probing : (s.pipe p).lc.state = .probing := not_not.1 state
    have idle : (s.pipe p).lc.state.stops = false := by rw [probing]; rfl
    split
    next valid =>
      obtain ⟨some, few, all⟩ := modesValid valid
      have held : ((s.setLink p .held).modLc p fun lc => { lc.stopTimer with modes := modes }).PipesSound := by
        rw [State.enterHeld_eq probing]
        refine of_pipe (h.withPipe (p := p) (pipe.idle { (s.pipe p).lc.stopTimer with state := .held, modes := modes } idle
          rfl ?_) .inl) fun _ => rfl
        exact ⟨⟨few, all⟩, fun _ => some, pipe.link.probeCount, ⟨pipe.link.missedAcks.1, nofun⟩, pipe.link.recoveries⟩
      dsimp only
      split
      · refine held.beginAdmission ?_
        rw [State.enterHeld_eq probing]
        exact congrArg (·.lc.state) (s.withPipe_pipe p _)
      · exact held
    next => exact h.relink

theorem receiveAck (p : Pipe) (echo value : Byte) : (s.receiveAck p echo value).PipesSound := by
  have pipe := h.pipes p
  unfold State.receiveAck
  split
  next mode selecting _ =>
    split
    · split
      next c force => exact (h.enterActive selecting force).finish
      next => exact h
    · exact h
  next number active _ =>
    split
    · exact h.modLc (pipe.relink _ rfl (pipe.link.enter rfl rfl pipe.link.recoveries pipe.link.listed
        ⟨Nat.zero_le _, fun _ => Nat.zero_le _⟩))
    · exact h
  next => exact h

theorem receiveNak (safe : s.bankSafe) (p : Pipe) : (s.receiveNak p).PipesSound := by
  unfold State.receiveNak
  split
  next => exact (h.enterRecovery safe p _).finish
  next number active _ => exact (h.missFrame safe active).finish
  next => exact h

theorem receivePanelFault (safe : s.bankSafe) (p : Pipe) (code : Byte) : (s.receivePanelFault p code).PipesSound := by
  have stored : (s.modLc p fun lc => { lc with panelFault := code }).PipesSound :=
    h.relink
  unfold State.receivePanelFault
  dsimp only
  split
  · exact (stored.enterRecovery safe p _).finish
  · exact (stored.enterRecovery safe p _).finish
  · exact (stored.enterRecovery safe p _).finish
  · exact stored
  · exact stored
  · exact stored

theorem receive (safe : s.bankSafe) (p : Pipe) : ∀ m : RxMessage, (s.receive p m).PipesSound
  | .list modes => h.receiveList p modes
  | .ack echo value => h.receiveAck p echo value
  | .nak => h.receiveNak safe p
  | .panelFault code => h.receivePanelFault safe p code

/-! Sending and the link's timers (R19 to R33). -/

theorem endSending (p : Pipe) : (s.endSending p).PipesSound := by
  unfold State.endSending
  split
  next => exact h
  next x _ =>
    have sent : (s.modLc p fun lc => { lc with
        sending := none, sent := lc.sent ++ [x.message],
        answerDeadline := if x.supervised then some (s.after x.message.answerTimer)
          else lc.answerDeadline }).PipesSound := h.relink
    unfold State.sendWaiting
    split
    · exact sent
    next q rest _ => exact relink (relink sent (g := fun lc => { lc with waiting := rest }))

theorem probeExpired (p : Pipe) (probing : (s.pipe p).lc.state = .probing) : (s.probeExpired p).PipesSound := by
  have stopped : (s.modLc p fun lc => { lc with answerDeadline := none }).PipesSound := h.relink
  unfold State.probeExpired
  dsimp only
  generalize ht : (s.modLc p fun lc => { lc with answerDeadline := none }) = t at stopped
  have same : (t.pipe p).lc.state = .probing ∧ (t.pipe p).lc.probeCount = (s.pipe p).lc.probeCount := by
    rw [← ht, State.modLc_pipe]
    exact ⟨probing, rfl⟩
  obtain ⟨probing, probes⟩ := same
  have pipe := stopped.pipes p
  split
  next few =>
    refine sendMessage (stopped.modLc (pipe.relink _ rfl ?_)) p _ _
    exact ⟨pipe.link.modes, pipe.link.listed, show _ + 1 ≤ 8 by omega, pipe.link.missedAcks, pipe.link.recoveries⟩
  next => exact (stopped.enterOff (fun stops => by rw [probing] at stops; exact nomatch stops) _).finish

/-! Slots and the ends of frames (R78 to R95). -/

theorem startBurst {p : Pipe} (due : s.slotDue p .window .burst = true) : (s.startBurst p).PipesSound := by
  obtain ⟨pl, a, b, on, -, burst⟩ := State.slotDue_goesOn due
  have next : (s.nextSlot p).PipesSound :=
    (State.Advanced.of_nextSlot h p).pipesSound on fun e => by rw [burst] at e; simp at e
  unfold State.startBurst State.releaseSlot
  dsimp only
  split
  · exact next.modFr ((next.pipes p).marked _)
  · exact next

theorem holdPanel : s.holdPanel.PipesSound := h.sendMessage .p1 _ _

theorem startWindow (due : s.slotDue .p1 .burst .window = true) : s.startWindow.PipesSound := by
  obtain ⟨pl, a, b, on, -, window⟩ := State.slotDue_goesOn due
  have completed := h.slotCompleted .p1 s.pipes.p1.fr.currentSlot
  have next : ((s.slotCompleted .p1 s.pipes.p1.fr.currentSlot).1.nextSlot .p1).PipesSound :=
    (State.Advanced.of_nextSlot completed .p1).pipesSound (State.slotCompleted_goesOn on _)
      fun e => by rw [window] at e; simp at e
  refine finish (next.holdPanel.of_pipe fun p => ?_)
  exact ((Within.refl {.sensing} _).raiseWindow rfl).pipe p (by simp)

theorem startBlank {p : Pipe} (due : s.slotDue p .burst .blank = true) : (s.startBlank p).PipesSound := by
  obtain ⟨pl, a, b, on, burst, -⟩ := State.slotDue_goesOn due
  exact finish (planPoint (h.slotCompleted p _) (State.slotCompleted_goesOn on _) burst)

theorem startTrim {p : Pipe} (due : s.slotDue p .blank .trim = true) : (s.startTrim p).PipesSound := by
  obtain ⟨pl, a, b, on, blank, -⟩ := State.slotDue_goesOn due
  exact h.modPipe ((h.pipes p).trimStarts on blank _)

theorem endTrim {p : Pipe} (due : s.trimDue p = true) : (s.endTrim p).PipesSound := by
  unfold State.trimDue at due
  obtain ⟨trim, -⟩ := Bool.and_eq_true_iff.1 due
  obtain ⟨x, current, kind⟩ := Option.map_eq_some_iff.1 (of_decide_eq_true trim)
  have running := Runner.currentSlot_running current
  have planDue : (s.pipe p).fr.planDue = true := by
    rw [Runner.planDue_of_slot current, kind]
    rfl
  unfold State.endTrim
  split
  next limit stretches =>
    refine h.modFr ((h.pipes p).stretches running planDue ?_ limit)
    unfold PipeState.stretchTo at stretches
    grind
  next => exact (h.endFrame (.inl running) planDue).finish

theorem stretchLimit {p : Pipe} (due : s.stretchDue p = true) : (s.endFrame p).finish.PipesSound := by
  unfold State.stretchDue at due
  obtain ⟨stretch, -⟩ := Bool.and_eq_true_iff.1 due
  have state := of_decide_eq_true stretch
  refine (h.endFrame (.inr state) ?_).finish
  unfold Runner.planDue
  rw [state]

theorem silenceLimit {p : Pipe} (due : s.silenceDue p = true) : (s.loseSource p id).PipesSound := by
  unfold State.silenceDue at due
  obtain ⟨following, -⟩ := Bool.and_eq_true_iff.1 due
  unfold State.loseSource
  rw [State.setLock_eq]
  have lost : (s.withPipe p { s.pipe p with lock := (s.pipe p).lock.toHoldover }).PipesSound :=
    h.withPipe ((h.pipes p).sourceLost following) .inl
  refine raisePipeFault ?_ p _
  exact lost.of_pipe fun _ => rfl

end State.PipesSound

end Sys2Proof.Machine
end

section
/-! PROOF. Both pipes sound, and apart: the decisions of the request kinds (R10, R25, R34, R39, R49, R119 to R125). -/

namespace Sys2Proof.Machine

/-- Checked items: as many as asked for, each one that passes. -/
theorem checkItems_spec {α : Type} {item : Nat → Option α} {n k : Nat} {xs : List α} (h : checkItems item n k = .ok xs) :
    xs.length = n ∧ ∀ x ∈ xs, ∃ j, item j = some x := by
  induction n generalizing k xs with
  | zero =>
    obtain rfl := Except.ok.inj h
    exact ⟨rfl, nofun⟩
  | succ n ih =>
    unfold checkItems at h
    split at h
    next => exact nomatch h
    next x first =>
      split at h
      next => exact nomatch h
      next ys rest =>
        obtain rfl := Except.ok.inj h
        obtain ⟨length, items⟩ := ih rest
        refine ⟨congrArg (· + 1) length, fun y hy => ?_⟩
        rcases List.mem_cons.1 hy with rfl | later
        · exact ⟨k, first⟩
        · exact items y later

theorem RequestRecord.offer_inRange {r : RequestRecord} {k : Nat} {o : Offer} (h : r.offer k = some o) :
    o.inRange = true := by
  unfold RequestRecord.offer at h
  dsimp only at h
  split at h
  · exact nomatch h
  · split at h
    next range => exact Option.some.inj h ▸ range
    next => exact nomatch h

theorem RequestRecord.setOffersArgs_spec {r : RequestRecord} {auto : Bool} {offers : List Offer}
    (h : r.setOffersArgs = .ok (auto, offers)) : offers.length ≤ 7 ∧ offers.all Offer.inRange = true := by
  unfold RequestRecord.setOffersArgs at h
  split at h
  next head =>
    cases items : checkItems r.offer (r.u8 0x20) 1 with
    | error e => rw [items] at h; exact nomatch h
    | ok os =>
      rw [items] at h
      obtain ⟨-, rfl⟩ := Prod.mk.inj (Except.ok.inj h)
      obtain ⟨length, each⟩ := checkItems_spec items
      refine ⟨by omega, List.all_eq_true.2 fun o ho => ?_⟩
      obtain ⟨j, item⟩ := each o ho
      exact RequestRecord.offer_inRange item
  next => exact nomatch h

/-- The lines and the deadline of a band that passes its checks (R124). -/
theorem RequestRecord.bandArgs_spec {r : RequestRecord} {v first last deadline : Nat}
    (h : r.bandArgs v = .ok (first, last, deadline)) :
    first ≤ last ∧ last < v ∧ 1000 ≤ deadline ∧ deadline ≤ 8000000 := by
  unfold RequestRecord.bandArgs at h
  split at h
  · exact nomatch h
  · split at h
    · exact nomatch h
    · split at h
      · exact nomatch h
      · simp only [Except.ok.injEq, Prod.mk.injEq] at h
        omega

namespace State.PipesSound
variable {s : State} (h : s.PipesSound)
include h

theorem decideSetOffers (r : RequestRecord) : (s.decideSetOffers r).PipesSound := by
  unfold State.decideSetOffers
  split
  next => exact h.of_pipes rfl
  next p _ =>
    split
    next => exact h.of_pipes rfl
    next auto offers args =>
      obtain ⟨few, range⟩ := RequestRecord.setOffersArgs_spec args
      have answered : (s.finishTake r .done [BitVec.ofNat 32 offers.length]).PipesSound := h.of_pipes rfl
      have stored : ((s.finishTake r .done [BitVec.ofNat 32 offers.length]).modPb p fun b =>
          { b with offers := offers, autoAdmit := auto }).PipesSound :=
        answered.modPipe ((answered.pipes p).offered few range auto)
      dsimp only
      split
      next admits => exact stored.beginAdmission (by rw [State.modPb_pipe]; exact admits.2)
      next => exact stored

theorem decideNegotiate (r : RequestRecord) : (s.decideNegotiate r).PipesSound := by
  unfold State.decideNegotiate
  split
  next => exact h.of_pipes rfl
  next p _ =>
    split
    next => exact h.of_pipes rfl
    next active =>
      split
      next => exact h.of_pipes rfl
      next free =>
        have parked : (s.park r).PipesSound := h.of_pipes rfl
        have staged : ((s.park r).modPb p fun b => { b with negotiate := some r.parked, phase := .staged }).PipesSound :=
          parked.modPipe ((parked.pipes p).staged (not_not.1 active) (Option.not_isSome_iff_eq_none.1 free) r.parked)
        exact staged.serveCompletions

theorem parkAdmit (r : RequestRecord) (p : Pipe) : (s.parkAdmit r p).PipesSound := by
  unfold State.parkAdmit
  split
  next => exact h.of_pipes rfl
  next =>
    have parked : (s.park r).PipesSound := h.of_pipes rfl
    have stored : ((s.park r).modLc p fun lc => { lc with parkedAdmit := some r.parked }).PipesSound := parked.relink
    dsimp only
    split
    next held => exact (stored.beginAdmission (by rw [State.modLc_pipe]; exact held)).serveCompletions
    next => exact stored.serveCompletions

theorem decideAdmit (r : RequestRecord) : (s.decideAdmit r).PipesSound := by
  unfold State.decideAdmit
  split
  next => exact h.of_pipes rfl
  next p _ =>
    split
    · exact h.of_pipes rfl
    · exact h.of_pipes rfl
    · exact h.parkAdmit r p
    · exact h.parkAdmit r p
    · exact h.parkAdmit r p
    · exact h.parkAdmit r p

theorem restartPipe (safe : s.bankSafe) (p : Pipe) : (s.restartPipe p).PipesSound := by
  obtain ⟨q, n, -, e⟩ := State.restartPipe_eq safe p
  have off : (s.turningOff p .hostRestart).PipesSound := by
    have entered := h.enterOff (p := p) (fun _ => safe) .hostRestart
    rw [State.enterOff_fields fun _ => safe] at entered
    exact entered.of_pipes rfl
  have idle : ((s.turningOff p .hostRestart).pipe p).lc.state.stops = false := by
    rw [State.turningOff_pipe]
    rfl
  rw [e]
  generalize s.turningOff p .hostRestart = u at off idle
  have pipe := off.pipes p
  have unparked : (u.pipe p).unparked.sound := by
    rw [pipe.unparked_eq idle]
    exact pipe.relink _ rfl (pipe.link.congr rfl rfl rfl rfl rfl)
  have probing : (u.withPipe p ((u.pipe p).unparked.probing s.time)).PipesSound :=
    off.withPipe (unparked.probing idle s.time) .inl
  exact probing.of_pipe fun _ => rfl

theorem decidePipeRestart (safe : s.bankSafe) (r : RequestRecord) : (s.decidePipeRestart r).PipesSound := by
  unfold State.decidePipeRestart
  split
  next => exact h.of_pipes rfl
  next p _ =>
    have answered : (s.finishTake r .done []).PipesSound := h.of_pipes rfl
    exact (answered.restartPipe safe p).published.of_bare (State.pipeRewritten_bare ..)

theorem callPullIn (p : Pipe) (served : Bool) : (s.callPullIn p served).PipesSound := by
  unfold State.callPullIn
  split
  next =>
    split
    next => exact h.serveCompletions
    next => exact (h.modFr ((h.pipes p).pullsIn _)).serveCompletions
  next _ state =>
    refine (h.endFrame (.inr state) ?_).finish.serveCompletions
    unfold Runner.planDue
    rw [state]
  next => exact h.serveCompletions

theorem decideFrameNow (r : RequestRecord) : (s.decideFrameNow r).PipesSound := by
  unfold State.decideFrameNow
  split
  next => exact h.of_pipes rfl
  next p _ =>
    split
    next => exact h.of_pipes rfl
    next runs =>
      obtain ⟨active, -⟩ := not_not.1 runs
      split
      next => exact h.of_pipes rfl
      next =>
        have parked : (s.park r).PipesSound := h.of_pipes rfl
        exact callPullIn (parked.modFr ((parked.pipes p).framesNow active r.parked)) p false

theorem decideUrgentBand (r : RequestRecord) : (s.decideUrgentBand r).PipesSound := by
  unfold State.decideUrgentBand
  split
  next => exact h.of_pipes rfl
  next p _ =>
    split
    next => exact h.of_pipes rfl
    next first last deadline args =>
      obtain ⟨order, inside, soon, late⟩ := RequestRecord.bandArgs_spec args
      split
      next => exact h.of_pipes rfl
      next active =>
        split
        next => exact h.of_pipes rfl
        next room =>
          have parked : (s.park r).PipesSound := h.of_pipes rfl
          have pipe := h.pipes p
          have lines : ∀ c, (s.pipe p).pb.contract = some c → last < c.v := fun c force => by
            unfold PlanBuilder.bandLines at inside
            rwa [force] at inside
          obtain ⟨c, force⟩ := Option.isSome_iff_exists.1 (pipe.coherent.contract.2 (.inr (not_not.1 active)))
          have range := (pipe.builder.contracts c (.inl force)).lines
          have lastLine := lines c force
          refine callPullIn (parked.modFr ((parked.pipes p).moreBands (not_not.1 active) (not_le.1 room) ?_ ?_)) p _
          · exact ⟨order, by dsimp only; omega, soon, late⟩
          · exact lines

theorem decideClearFaults (r : RequestRecord) : (s.decideClearFaults r).PipesSound := by
  unfold State.decideClearFaults
  split
  next p _ =>
    have answered : (s.finishTake r .done [BitVec.ofNat 32 (s.pipe p).faults.code]).PipesSound := h.of_pipes rfl
    exact answered.modPipe ((answered.pipes p).alike rfl rfl rfl rfl)
  next => exact h.of_pipes rfl
  next => exact h.of_pipes rfl

/-! Reference pulses (R104, R105). -/

theorem takeEdge : s.takeEdge.PipesSound := by
  unfold State.takeEdge
  split
  next => exact h.of_pipes rfl
  next =>
    have present : (s.modRef fun r => { r with present := true }).PipesSound := h.of_pipes rfl
    exact present.refPulse.finish

theorem generatePulse : s.generatePulse.PipesSound := by
  have moved : (s.modRef fun r => { r with genPhase := some (s.after r.fref) }).PipesSound := h.of_pipes rfl
  exact moved.refPulse.finish

end State.PipesSound

end Sys2Proof.Machine
end

section
/-! PROOF. What a command does, by the operation it runs and the guard of that operation. -/

namespace Sys2Proof.Machine

/-- The states a command takes `s` to, but for the records it rewrites: one constructor for each operation that a command
runs, with what lets it run. -/
inductive Acts (s : State) : State → Prop where
  /-- Nothing of the pipes, the sensing, the reference and the quiet spans is touched. -/
  | outside (v : State) (within : Within ∅ s v) : Acts s v
  | claim (b : Fin 16) : Acts s ((s.unclaimed b).claimArrival b)
  | setOffers (r : RequestRecord) (takes : s.takes 0x01 r) : Acts s (s.decideSetOffers r)
  | negotiate (r : RequestRecord) (takes : s.takes 0x02 r) : Acts s (s.decideNegotiate r)
  | admission (r : RequestRecord) (takes : s.takes 0x03 r) : Acts s (s.decideAdmit r)
  | restart (r : RequestRecord) (takes : s.takes 0x04 r) : Acts s (s.decidePipeRestart r)
  | setQuiet (r : RequestRecord) (takes : s.takes 0x05 r) : Acts s (s.decideSetQuiet r)
  | urgentBand (r : RequestRecord) (takes : s.takes 0x06 r) : Acts s (s.decideUrgentBand r)
  | frameNow (r : RequestRecord) (takes : s.takes 0x07 r) : Acts s (s.decideFrameNow r)
  | setReference (r : RequestRecord) (takes : s.takes 0x08 r) : Acts s (s.decideSetReference r)
  | setSurface (r : RequestRecord) (takes : s.takes 0x09 r) : Acts s (s.decideSetSurface r)
  | surfaceEnable (r : RequestRecord) (takes : s.takes 0x0A r) : Acts s (s.decideSurfaceEnable r)
  | setBank (r : RequestRecord) (takes : s.takes 0x0B r) : Acts s (s.decideSetBank r)
  | clearFaults (r : RequestRecord) (takes : s.takes 0x0D r) : Acts s (s.decideClearFaults r)
  | receive (p : Pipe) (m : RxMessage) : Acts s (s.receive p m)
  | sent (p : Pipe) : Acts s (s.endSending p)
  | probe (p : Pipe) (due : s.answerDue p .probing = true) : Acts s (s.probeExpired p)
  | refusal (p : Pipe) (due : s.answerDue p .selecting = true) : Acts s (s.enterRecovery p .selectTimeout).finish
  | miss (p : Pipe) (due : s.answerDue p .active = true) : Acts s (s.missFrame p).finish
  | quietEnd (p : Pipe) (due : s.quietDue p = true) : Acts s (s.enterProbing p)
  | aligned (p : Pipe) (due : s.alignedDue p = true) : Acts s (s.startFrame p .aligned).finish
  | deadline (p : Pipe) (due : s.alignDeadlineDue p = true) : Acts s (s.startFrame p .deadline).finish
  | burst (p : Pipe) (due : s.slotDue p .window .burst = true) : Acts s (s.startBurst p)
  | window (due : s.slotDue .p1 .burst .window = true) : Acts s s.startWindow
  | blank (p : Pipe) (due : s.slotDue p .burst .blank = true) : Acts s (s.startBlank p)
  | trim (p : Pipe) (due : s.slotDue p .blank .trim = true) : Acts s (s.startTrim p)
  | trimEnd (p : Pipe) (due : s.trimDue p = true) : Acts s (s.endTrim p)
  | stretchEnd (p : Pipe) (due : s.stretchDue p = true) : Acts s (s.endFrame p).finish
  | silence (p : Pipe) (due : s.silenceDue p = true) : Acts s (s.loseSource p id)
  | edge (external : s.ref.source = .external) : Acts s s.takeEdge
  | pulse (due : s.generatorDue = true) : Acts s s.generatePulse
  | absence : Acts s (s.modRef fun r => { r with present := false })
  | tick (due : s.tickDue = true) : Acts s s.tickPad
  | retuned (due : s.retuneDue = true) : Acts s s.endRetune
  | scanned (r : BankRequest) (nodes : List Half) (due : s.scanDue = true) (granted : s.bank.granted = some r) :
      Acts s (s.completeScan r nodes)
  | expiry (k : Surface) (due : s.expiryDue k = true) : Acts s (s.expireRequest k)
  | written : Acts s s.endWrite

namespace Acts
variable {c : Instr} {s t : State}

/-- A command that runs an operation ends as the operation does, but for the records. -/
def Ends (s t : State) : Prop := ∃ v, Acts s v ∧ t.bare = v.bare

theorem ends_publish {v : State} (h : Acts s v) : Ends s (publish s v) := ⟨v, h, publish_bare s v⟩

theorem ends_self : Ends s s := ⟨s, .outside s (.refl _ s), rfl⟩

theorem ends_within {t : State} (h : EndsWithin ∅ s t) : Ends s t := by
  obtain ⟨v, within, rfl⟩ := h
  exact ends_publish (.outside v within)

theorem ends_event {guard : Bool} {f : State → State} (h : event guard f s = .next t) (acts : guard = true → Acts s (f s)) :
    Ends s t := by
  obtain rfl := next_inj h
  split
  next due => exact ends_publish (acts due)
  next => exact ends_self

theorem ends_decision {kind : Nat} {f : State → RequestRecord → State} (h : decision kind f s = .next t)
    (acts : ∀ r, s.takes kind r → Acts s (f s r)) : Ends s t := by
  obtain rfl := next_inj h
  split
  next r taken => exact ends_publish (acts r (State.taken_eq_some.1 taken))
  next => exact ends_self

theorem ends_hostWrite {a : Nat} {v : Word} (h : HostWritten s a v t)
    (alive : ¬ (portTarget (alignWord a) = .control ∧ v.getLsbD 0 = true)) : Ends s t := by
  rcases h.endsWithin alive with stored | ⟨b, rfl⟩
  · exact ends_within stored
  · exact ends_publish (.claim b)

end Acts

theorem exec_acts {c : Instr} {s t : State} (alive : c.resets = false) (late : c ≠ .initialisationCompletion)
    (h : exec c s = .next t) : Acts.Ends s t := by
  have port : ∀ {a v}, c.portWrite = some (a, v) → Acts.Ends s t := fun {a v} hw => by
    obtain rfl := next_inj ((exec_portWrite hw s).symm.trans h)
    refine Acts.ends_hostWrite (s.hostWrite_cases a v) fun ⟨target, bit⟩ => ?_
    exact absurd (alive.symm.trans (Instr.resets_of_control hw target bit)) (by decide)
  cases c with
  | powerOnReset => exact nomatch alive
  | initialisationCompletion => exact absurd rfl late
  | softReset value => exact port rfl
  | noticeWrite value => exact port rfl
  | noticeMaskWrite value => exact port rfl
  | registerWriteDiscarded address value => exact port rfl
  | hostWorkMemoryWrite address value => exact port rfl
  | cellCodeWordWrite cell value => exact port rfl
  | claimReturn block => exact port rfl
  | requestTake => exact Acts.ends_within (endsWithin_requestTake h)
  | completionWrite => exact Acts.ends_within (endsWithin_completionWrite h)
  | setOffers => exact Acts.ends_decision h .setOffers
  | negotiate => exact Acts.ends_decision h .negotiate
  | admitPipe => exact Acts.ends_decision h .admission
  | pipeRestart =>
    obtain rfl := next_inj h
    split
    next r taken => exact ⟨_, .restart r (State.taken_eq_some.1 taken), rfl⟩
    next => exact Acts.ends_self
  | setQuiet => exact Acts.ends_decision h .setQuiet
  | urgentBand => exact Acts.ends_decision h .urgentBand
  | frameNow => exact Acts.ends_decision h .frameNow
  | setReference => exact Acts.ends_decision h .setReference
  | setSurface => exact Acts.ends_decision h .setSurface
  | surfaceEnable => exact Acts.ends_decision h .surfaceEnable
  | setBank => exact Acts.ends_decision h .setBank
  | setEventPins => exact Acts.ends_within (endsWithin_decision h .decideSetEventPins)
  | clearFaults => exact Acts.ends_decision h .clearFaults
  | messageRejected p bytes =>
    obtain rfl := next_inj ((exec_messageRejected s p bytes).symm.trans h)
    split
    next m _ => exact Acts.ends_publish (.receive p m)
    next => exact Acts.ends_self
  | list p modes =>
    unfold exec execList at h
    exact Acts.ends_event h fun _ => .receive p (.list modes)
  | ack p echo value =>
    unfold exec execAck at h
    exact Acts.ends_event h fun _ => .receive p (.ack echo value)
  | nak p =>
    unfold exec execNak at h
    exact Acts.ends_event h fun _ => .receive p .nak
  | panelFault p code =>
    unfold exec execPanelFault at h
    exact Acts.ends_event h fun _ => .receive p (.panelFault code)
  | messageSent p =>
    unfold exec execMessageSent at h
    exact Acts.ends_event h fun _ => .sent p
  | probeTimeout p =>
    unfold exec execProbeTimeout at h
    exact Acts.ends_event h (.probe p)
  | selectTimeout p =>
    unfold exec execSelectTimeout at h
    exact Acts.ends_event h (.refusal p)
  | frameAckTimeout p =>
    unfold exec execFrameAckTimeout at h
    exact Acts.ends_event h (.miss p)
  | quietIntervalExpiry p =>
    unfold exec execQuietIntervalExpiry at h
    exact Acts.ends_event h (.quietEnd p)
  | alignedStart p =>
    unfold exec execAlignedStart at h
    exact Acts.ends_event h (.aligned p)
  | alignmentDeadline p =>
    unfold exec execAlignmentDeadline at h
    exact Acts.ends_event h (.deadline p)
  | burstStart p =>
    unfold exec execBurstStart at h
    exact Acts.ends_event h (.burst p)
  | windowStart =>
    unfold exec execWindowStart at h
    exact Acts.ends_event h .window
  | planPoint p =>
    unfold exec execPlanPoint at h
    exact Acts.ends_event h (.blank p)
  | trimStart p =>
    unfold exec execTrimStart at h
    exact Acts.ends_event h (.trim p)
  | trimEnd p =>
    unfold exec execTrimEnd at h
    exact Acts.ends_event h (.trimEnd p)
  | stretchLimit p =>
    unfold exec execStretchLimit at h
    exact Acts.ends_event h (.stretchEnd p)
  | silenceLimit p =>
    unfold exec execSilenceLimit at h
    exact Acts.ends_event h (.silence p)
  | refsyncEdge =>
    unfold exec execRefsyncEdge at h
    exact Acts.ends_event h fun external => .edge (of_decide_eq_true external)
  | generatedPulse =>
    unfold exec execGeneratedPulse at h
    exact Acts.ends_event h .pulse
  | presenceAbsent =>
    unfold exec execPresenceAbsent at h
    exact Acts.ends_event h fun _ => .absence
  | padTick =>
    unfold exec execPadTick at h
    exact Acts.ends_event h .tick
  | retuneEnd =>
    unfold exec execRetuneEnd at h
    exact Acts.ends_event h .retuned
  | scanCompletion nodes =>
    obtain rfl := next_inj h
    split
    next due =>
      unfold State.endScan
      split
      next r granted =>
        refine ⟨_, .scanned r nodes due granted, ?_⟩
        rw [State.surfaceRewritten_bare, publish_bare]
      next => exact Acts.ends_self
    next => exact Acts.ends_self
  | requestExpiry k =>
    unfold exec execRequestExpiry at h
    exact Acts.ends_event h (.expiry k)
  | writeCompletion =>
    unfold exec execWriteCompletion at h
    exact Acts.ends_event h fun _ => .written
  | pinPulseEnd pin =>
    unfold exec execPinPulseEnd at h
    exact Acts.ends_within (endsWithin_event h ((Within.refl ∅ s).same rfl))

end Sys2Proof.Machine
end

section
/-! PROOF. Every step keeps the pipes sound, apart, and OFF before READY (R5, R20, R35, R38, R43). -/

namespace Sys2Proof.Machine

/-- Both links are OFF, as they are before READY (R5, R20). -/
def State.linksOff (s : State) : Prop := ∀ p, (s.pipe p).lc.state = .off

theorem State.linksOff.of_pipe {s t : State} (h : s.linksOff) (same : ∀ p, t.pipe p = s.pipe p) : t.linksOff :=
  fun p => same p ▸ h p

theorem State.linksOff.modLc {s : State} (h : s.linksOff) {p : Pipe} {g : LinkCtl → LinkCtl}
    (same : (g (s.pipe p).lc).state = (s.pipe p).lc.state) : (s.modLc p g).linksOff := fun q => by
  by_cases e : q = p
  · subst e
    rw [State.modLc_pipe]
    exact same.trans (h q)
  · rw [eq_otherPipe e, State.modLc_pipe_other]
    exact h _

/-- An OFF link stores the code of a PANEL_FAULT, and ignores all else (R24, R31). -/
theorem State.linksOff.receive {s : State} (h : s.linksOff) (p : Pipe) : ∀ m : RxMessage, (s.receive p m).linksOff
  | .list modes => by
    show (s.receiveList p modes).linksOff
    unfold State.receiveList
    rw [if_pos (by rw [h p]; nofun)]
    exact h
  | .ack echo value => by
    show (s.receiveAck p echo value).linksOff
    unfold State.receiveAck
    rw [h p]
    exact h
  | .nak => by
    show (s.receiveNak p).linksOff
    unfold State.receiveNak
    rw [h p]
    exact h
  | .panelFault code => by
    show (s.receivePanelFault p code).linksOff
    unfold State.receivePanelFault
    rw [h p]
    exact h.modLc rfl

theorem State.linksOff.endSending {s : State} (h : s.linksOff) (p : Pipe) : (s.endSending p).linksOff := by
  unfold State.endSending
  split
  next => exact h
  next x _ =>
    have sent : (s.modLc p fun lc => { lc with
        sending := none, sent := lc.sent ++ [x.message],
        answerDeadline := if x.supervised then some (s.after x.message.answerTimer)
          else lc.answerDeadline }).linksOff := h.modLc rfl
    unfold State.sendWaiting
    split
    · exact sent
    next q rest _ => exact State.linksOff.modLc (sent.modLc (g := fun lc => { lc with waiting := rest }) rfl) rfl

/-- What an OFF link rules out, as the blocks agree. -/
theorem PipeState.coherent.off {x : PipeState} (h : x.coherent) (off : x.lc.state = .off) :
    x.pb.contract = none ∧ x.fr.state = .stopped ∧ x.lock.state = .notLocking := by
  have contract := h.contract
  have runner := h.runner
  have locking := h.locking
  refine ⟨?_, ?_, ?_⟩
  · rw [← Option.not_isSome_iff_eq_none]
    grind
  · grind
  · grind

namespace Acts
variable {s v : State}

theorem of_outside_pipes {F : Set Part} (hs : s.PipesSound) (h : Within F s v) (out : ∀ p, .pipe p ∉ F) : v.PipesSound :=
  hs.of_pipe fun p => h.pipe p (out p)

theorem pipesSound (h : Acts s v) (hs : s.PipesSound) (safe : s.bankSafe) : v.PipesSound := by
  have own : Part.sensing ∈ ({.sensing} : Set Part) := rfl
  have start := Within.refl {.sensing} s
  have sensed : ∀ {u}, Within {.sensing} s u → u.PipesSound := fun within => of_outside_pipes hs within (by simp)
  cases h with
  | outside v within => exact of_outside_pipes hs within (by simp)
  | claim b => exact sensed (within_claim own s b)
  | setOffers r _ => exact hs.decideSetOffers r
  | negotiate r _ => exact hs.decideNegotiate r
  | admission r _ => exact hs.decideAdmit r
  | restart r _ => exact hs.decidePipeRestart safe r
  | setQuiet r _ => exact of_outside_pipes hs (.decideSetQuiet (F := {.quiet}) rfl r) (by simp)
  | urgentBand r _ => exact hs.decideUrgentBand r
  | frameNow r _ => exact hs.decideFrameNow r
  | setReference r _ => exact of_outside_pipes hs (.decideSetReference (F := {.reference}) rfl r) (by simp)
  | setSurface r _ => exact sensed (.decideSetSurface own r)
  | surfaceEnable r _ => exact sensed (.decideSurfaceEnable own r)
  | setBank r _ => exact sensed (.decideSetBank own r)
  | clearFaults r _ => exact hs.decideClearFaults r
  | receive p m => exact hs.receive safe p m
  | sent p => exact hs.endSending p
  | probe p due => exact hs.probeExpired p ((State.answerDue_iff ..).1 due).1
  | refusal p _ => exact (hs.enterRecovery safe p _).finish
  | miss p due => exact (hs.missFrame safe ((State.answerDue_iff ..).1 due).1).finish
  | quietEnd p due =>
    refine hs.enterProbing ?_
    rw [of_decide_eq_true (Bool.and_eq_true_iff.1 due).1]
    rfl
  | aligned p due => exact (hs.startAligned (of_decide_eq_true (Bool.and_eq_true_iff.1 due).1) (.inl rfl)).finish
  | deadline p due => exact (hs.startAligned (of_decide_eq_true (Bool.and_eq_true_iff.1 due).1).1 (.inr rfl)).finish
  | burst p due => exact hs.startBurst due
  | window due => exact hs.startWindow due
  | blank p due => exact hs.startBlank due
  | trim p due => exact hs.startTrim due
  | trimEnd p due => exact hs.endTrim due
  | stretchEnd p due => exact hs.stretchLimit due
  | silence p due => exact hs.silenceLimit due
  | edge _ => exact hs.takeEdge
  | pulse _ => exact hs.generatePulse
  | absence => exact hs.of_pipes rfl
  | tick _ => exact sensed (start.tickPad own)
  | retuned _ => exact sensed (start.endRetune own)
  | scanned r nodes _ _ => exact sensed (start.completeScan own r nodes)
  | expiry k _ => exact sensed ((start.modBank own _).loseRequest own k)
  | written => exact sensed (.endWrite own)

theorem linksOff (h : Acts s v) (hs : s.PipesSound) (idle : s.rqi.engine = .idle) (off : s.linksOff) : v.linksOff := by
  have own : Part.sensing ∈ ({.sensing} : Set Part) := rfl
  have start := Within.refl {.sensing} s
  have still : ∀ {F u}, Within F s u → (∀ p, .pipe p ∉ F) → u.linksOff := fun within out =>
    off.of_pipe fun p => within.pipe p (out p)
  have sensed : ∀ {u}, Within {.sensing} s u → u.linksOff := fun within => still within (by simp)
  have untaken : ∀ {kind r}, s.takes kind r → v.linksOff := fun {kind r} ⟨_, since, taking⟩ =>
    nomatch idle.symm.trans taking
  have awaits : ∀ {p state}, s.answerDue p state = true → state ≠ .off → v.linksOff := fun due ne =>
    absurd ((off _).symm.trans ((State.answerDue_iff ..).1 due).1).symm ne
  have stopped : ∀ p, (s.pipe p).fr.state = .stopped := fun p => ((hs.pipes p).coherent.off (off p)).2.1
  have none : ∀ p, (s.pipe p).pb.contract = none := fun p => ((hs.pipes p).coherent.off (off p)).1
  have idles : ∀ {p ends starts}, s.slotDue p ends starts = true → v.linksOff := fun {p _ _} due => by
    obtain ⟨pl, a, b, on, -⟩ := State.slotDue_goesOn due
    exact nomatch (stopped p).symm.trans on.running
  cases h with
  | outside v within => exact still within (by simp)
  | claim b => exact sensed (within_claim own s b)
  | setOffers r takes => exact untaken takes
  | negotiate r takes => exact untaken takes
  | admission r takes => exact untaken takes
  | restart r takes => exact untaken takes
  | setQuiet r takes => exact untaken takes
  | urgentBand r takes => exact untaken takes
  | frameNow r takes => exact untaken takes
  | setReference r takes => exact untaken takes
  | setSurface r takes => exact untaken takes
  | surfaceEnable r takes => exact untaken takes
  | setBank r takes => exact untaken takes
  | clearFaults r takes => exact untaken takes
  | receive p m => exact off.receive p m
  | sent p => exact off.endSending p
  | probe p due => exact awaits due nofun
  | refusal p due => exact awaits due nofun
  | miss p due => exact awaits due nofun
  | quietEnd p due => exact nomatch (off p).symm.trans (of_decide_eq_true (Bool.and_eq_true_iff.1 due).1)
  | aligned p due => exact nomatch (stopped p).symm.trans (of_decide_eq_true (Bool.and_eq_true_iff.1 due).1)
  | deadline p due => exact nomatch (stopped p).symm.trans (of_decide_eq_true (Bool.and_eq_true_iff.1 due).1).1
  | burst p due => exact idles due
  | window due => exact idles due
  | blank p due => exact idles due
  | trim p due => exact idles due
  | trimEnd p due =>
    obtain ⟨x, current, -⟩ := Option.map_eq_some_iff.1 (of_decide_eq_true (Bool.and_eq_true_iff.1 due).1)
    exact nomatch (stopped p).symm.trans (Runner.currentSlot_running current)
  | stretchEnd p due => exact nomatch (stopped p).symm.trans (of_decide_eq_true (Bool.and_eq_true_iff.1 due).1)
  | silence p due =>
    have follows := of_decide_eq_true (Bool.and_eq_true_iff.1 due).1
    rw [((hs.pipes p).coherent.off (off p)).2.2] at follows
    simp at follows
  | edge _ =>
    unfold State.takeEdge
    split
    · exact off.of_pipe fun _ => rfl
    · rw [State.refPulse_alone (s := s.modRef _) none]
      exact off.of_pipe fun _ => rfl
  | pulse _ =>
    unfold State.generatePulse
    rw [State.refPulse_alone (s := s.modRef _) none]
    exact off.of_pipe fun _ => rfl
  | absence => exact off.of_pipe fun _ => rfl
  | tick _ => exact sensed (start.tickPad own)
  | retuned _ => exact sensed (start.endRetune own)
  | scanned r nodes _ _ => exact sensed (start.completeScan own r nodes)
  | expiry k _ => exact sensed ((start.modBank own _).loseRequest own k)
  | written => exact sensed (.endWrite own)

end Acts

end Sys2Proof.Machine
end

section
/-! PROOF. Every step keeps the pipes in agreement, and apart (R35, R38, R43, R57, R61, R81, R94, R108 to R110). -/

namespace Sys2Proof.Machine

/-- A reset command starts one of the two resets (R4). -/
theorem exec_resets {c : Instr} {s t : State} (resets : c.resets = true) (h : exec c s = .next t) :
    t = s.powerOn ∨ t = s.softReset := by
  unfold Instr.resets at resets
  split at resets
  · exact .inl (next_inj h).symm
  · split at resets
    next a v port =>
      obtain ⟨target, bit⟩ := Bool.and_eq_true_iff.1 resets
      have target := of_decide_eq_true target
      obtain rfl := next_inj ((exec_portWrite port s).symm.trans h)
      refine .inr ?_
      simp only [State.hostWrite, target, bit, if_true]
    · exact nomatch resets

theorem PipeState.reset_sound : PipeState.reset.sound :=
  PipeState.reset.sound_iff.2 ⟨PipeState.reset_coherent, PipeState.reset_bounded⟩

theorem PipeState.afterReset_sound (x : PipeState) : x.afterReset.sound := by
  have sent : { PipeState.reset with lc := { LinkCtl.reset with sent := x.lc.sent } }.sound :=
    PipeState.reset_sound.relink _ rfl (PipeState.reset_sound.link.congr rfl rfl rfl rfl rfl)
  exact sent.marked x.fr.lpo

/-- A reset state of the pipes. -/
theorem State.PipesSound.of_reset {s t : State} (h : ∀ p, t.pipe p = (s.pipe p).afterReset) : t.PipesSound where
  pipes p := h p ▸ PipeState.afterReset_sound _
  apart := State.peersApart_of .p0 fun holds => by
    rw [h .p0] at holds
    rcases holds with e | e <;> exact nomatch e

theorem State.restart_pipe (s : State) (p : Pipe) : s.restart.pipe p = (s.pipe p).afterReset := by cases p <;> rfl

theorem resets_pipe {s t : State} (h : t = s.powerOn ∨ t = s.softReset) (p : Pipe) : t.pipe p = (s.pipe p).afterReset := by
  rcases h with rfl | rfl
  · exact s.restart_pipe p
  · exact s.restart_pipe p

/-- At the end of an initialisation both links are in PROBING (R5, R21). -/
theorem becomeReady_pipe {s : State} (hs : s.PipesSound) (off : s.linksOff) (p : Pipe) :
    s.initialised.becomeReady.pipe p = (s.pipe p).probing s.time := by
  have frame := (initialises_initialised s).frame
  generalize s.initialised = i at frame ⊢
  have same : ∀ q, i.pipe q = s.pipe q := fun q => by rw [frame]; rfl
  have time : i.time = s.time := by rw [frame]
  rw [State.becomeReady_eq (fun q => by rw [same]; exact off q) fun q => by
    rw [same]; exact ((hs.pipes q).coherent.off (off q)).1]
  rw [← same, ← time]
  cases p <;> rfl

theorem exec_pipesSound {c : Instr} {s t : State} (hs : s.PipesSound) (safe : s.bankSafe)
    (dark : s.ready = false → s.linksOff) (h : exec c s = .next t) : t.PipesSound := by
  cases alive : c.resets with
  | true => exact .of_reset (resets_pipe (exec_resets alive h))
  | false =>
    by_cases late : c = .initialisationCompletion
    · subst late
      obtain rfl := next_inj h
      split
      next => exact hs
      next down =>
        have off := dark (by simpa using down)
        refine State.PipesSound.published ⟨fun p => ?_, State.peersApart_congr hs.apart fun p => ?_⟩
        · rw [becomeReady_pipe hs off]
          exact (hs.pipes p).probing (by rw [off p]; rfl) _
        · rw [becomeReady_pipe hs off]
          exact ⟨rfl, rfl⟩
    · obtain ⟨v, acts, same⟩ := exec_acts alive late h
      exact (acts.pipesSound hs safe).of_bare same

theorem State.bare_ready {s t : State} (same : t.bare = s.bare) : t.ready = s.ready :=
  show t.bare.ready = s.bare.ready from congrArg State.ready same

theorem State.bare_link {s t : State} (same : t.bare = s.bare) : ∀ p, (t.pipe p).lc.state = (s.pipe p).lc.state
  | .p0 => congrArg (·.pipes.p0.lc.state) same
  | .p1 => congrArg (·.pipes.p1.lc.state) same

theorem exec_linksOff {c : Instr} {s t : State} (hs : s.PipesSound)
    (dark : s.ready = false → s.rqi.engine = .idle ∧ s.linksOff) (h : exec c s = .next t) (down : t.ready = false) :
    t.linksOff := by
  cases alive : c.resets with
  | true => exact fun p => congrArg (·.lc.state) (resets_pipe (exec_resets alive h) p)
  | false =>
    by_cases late : c = .initialisationCompletion
    · subst late
      obtain rfl := next_inj h
      split at down
      next up => exact nomatch up.symm.trans down
      next =>
        have within := Within.becomeReady (F := Set.univ) (s := s.initialised) trivial fun p => starts_univ _ p
        rw [State.bare_ready (publish_bare ..), within.ready] at down
        exact nomatch down
    · obtain ⟨v, acts, same⟩ := exec_acts alive late h
      obtain ⟨idle, off⟩ := dark ((exec_published alive late h).ready ▸ down)
      exact fun p => (State.bare_link same p).trans (acts.linksOff hs idle off p)

theorem State.passTime_same (s : State) : s.passTime.pipes = s.pipes ∧ s.passTime.ready = s.ready ∧
    s.passTime.rqi = s.rqi ∧ s.passTime.surfaces = s.surfaces ∧ s.passTime.bank = s.bank ∧ s.passTime.pct = s.pct ∧
    s.passTime.ref = s.ref ∧ s.passTime.quietSpans = s.quietSpans ∧ s.passTime.shiftMax = s.shiftMax := by
  obtain ⟨n, u, work, -, n', m, e, -⟩ := s.passTime_spec
  rw [e, work.frame]
  exact ⟨rfl, rfl, rfl, rfl, rfl, rfl, rfl, rfl, rfl⟩

/-- Where no request is, the engine is idle. -/
theorem State.engine_idle {s : State} (h : s.requestCells = []) : s.rqi.engine = .idle := by
  unfold State.requestCells at h
  have none : s.rqi.engine.cells = [] := (List.append_eq_nil_iff.1 (List.append_eq_nil_iff.1 h).1).2
  cases engine : s.rqi.engine with
  | idle => rfl
  | taking r since => rw [engine] at none; exact nomatch none
  | writing c since => rw [engine] at none; exact nomatch none

theorem State.safe.pipesSound {s : State} (h : s.safe) : s.PipesSound := by
  obtain ⟨-, -, ⟨coherent, apart, -⟩, -, -, -, ⟨bounded, -⟩, -⟩ := h
  exact ⟨fun p => (s.pipe p).sound_iff.2 ⟨coherent p, bounded p⟩, apart⟩

theorem step_pipesSound {s t : State} (safe : s.safe) (h : step s = .next t) : t.PipesSound := by
  have sound := safe.pipesSound
  obtain ⟨-, -, ⟨-, -, dark⟩, bank, -⟩ := safe
  rcases step_exec h with ⟨c, pending, n, he⟩ | ⟨n, rfl⟩
  · exact exec_pipesSound (s := { s with pending := pending, free := n }) (sound.of_pipes rfl) bank
      (fun down => (dark down).2) he
  · exact sound.of_pipes (State.passTime_same _).1

/-- Settles O54: a command runs an operation, and each operation keeps the pipes sound and apart; before READY none moves a
link, and no request is anywhere. -/
theorem stepsKeepPipesSafe : Obligations.StepsKeepPipesSafe := by
  unfold Obligations.StepsKeepPipesSafe
  intro s t safe h
  have sound := step_pipesSound safe h
  refine ⟨fun p => (sound.pipes p).coherent, sound.apart, fun down => ⟨?_, ?_⟩⟩
  · have cells := stepsKeepCellsSafe s t safe h
    unfold State.cellsSafe at cells
    rw [if_neg (by rw [down]; decide)] at cells
    exact State.engine_idle cells.2
  · have before := safe.pipesSound
    obtain ⟨-, -, ⟨-, -, dark⟩, -⟩ := safe
    rcases step_exec h with ⟨c, pending, n, he⟩ | ⟨n, rfl⟩
    · exact exec_linksOff (s := { s with pending := pending, free := n }) (before.of_pipes rfl) dark he down
    · obtain ⟨pipes, ready, -⟩ := State.passTime_same { s with free := n }
      exact State.linksOff.of_pipe (dark (ready ▸ down)).2 fun p => congrArg (·.get p) pipes

end Sys2Proof.Machine
end

section
/-! PROOF. What the Bank Arbiter keeps (R132 to R145). -/

namespace Sys2Proof.Machine

theorem PerSurface.get_set_ne {α : Type} (x : PerSurface α) {k f : Surface} (ne : f ≠ k) (a : α) :
    (x.set k a).get f = x.get f := by cases f <;> cases k <;> trivial

theorem State.modSurf_surf_ne {s : State} {k f : Surface} (ne : f ≠ k) {g : SurfaceState → SurfaceState} :
    (s.modSurf k g).surf f = s.surf f := by cases f <;> cases k <;> trivial

/-! Surfaces: an arbiter's operation moves nothing of them but fault sets and lost counts (R144, R159). -/

/-- The same surface but for its fault set and the lost count of its frame in assembly. -/
structure SurfaceState.sameButLoss (x y : SurfaceState) : Prop where
  enabled : y.enabled = x.enabled
  geo     : y.geo = x.geo
  cursor  : y.cursor = x.cursor
  frame   : y.asm.firstRow = x.asm.firstRow ∧ y.asm.rows = x.asm.rows ∧ y.asm.used = x.asm.used ∧
    y.asm.noisyRows = x.asm.noisyRows
  lost    : x.asm.lost ≤ 65535 → y.asm.lost ≤ 65535
  held    : y.held = x.held
  skip    : y.skip = x.skip

theorem SurfaceState.sameButLoss.refl (x : SurfaceState) : x.sameButLoss x :=
  ⟨rfl, rfl, rfl, ⟨rfl, rfl, rfl, rfl⟩, id, rfl, rfl⟩

theorem SurfaceState.sameButLoss.trans {x y z : SurfaceState} (h : x.sameButLoss y) (h' : y.sameButLoss z) :
    x.sameButLoss z where
  enabled := h'.enabled.trans h.enabled
  geo := h'.geo.trans h.geo
  cursor := h'.cursor.trans h.cursor
  frame := by
    obtain ⟨firstRow, rows, used, noisy⟩ := h.frame
    obtain ⟨firstRow', rows', used', noisy'⟩ := h'.frame
    exact ⟨firstRow'.trans firstRow, rows'.trans rows, used'.trans used, noisy'.trans noisy⟩
  lost := h'.lost ∘ h.lost
  held := h'.held.trans h.held
  skip := h'.skip.trans h.skip

theorem SurfaceState.bounded.sameButLoss {x y : SurfaceState} {k : Surface} (h : x.bounded k) (same : x.sameButLoss y) :
    y.bounded k := by
  obtain ⟨geometry, cursor, rows, nodes, firstRow, counts, held, skip⟩ := h
  obtain ⟨-, geo', cursor', ⟨first', rows', used', noisy'⟩, lost, held', skip'⟩ := same
  constructor
  · exact geo' ▸ geometry
  · rwa [geo', cursor']
  · rwa [rows', cursor']
  · rwa [rows', geo']
  · rwa [first', cursor']
  · rw [used', noisy', cursor']
    exact ⟨counts.1, counts.2.1, lost counts.2.2⟩
  · rwa [held']
  · rwa [skip']

/-- What leads from `s` to `t` is the arbiter's: of the surfaces and the pad timer only losses show. -/
structure State.Arbitrated (s t : State) : Prop where
  surfaces : ∀ k, (s.surf k).sameButLoss (t.surf k)
  timer    : t.pct = s.pct

namespace State.Arbitrated
variable {s t u : State}

theorem refl (s : State) : s.Arbitrated s := ⟨fun _ => .refl _, rfl⟩

theorem trans (h : s.Arbitrated t) (h' : t.Arbitrated u) : s.Arbitrated u :=
  ⟨fun k => (h.surfaces k).trans (h'.surfaces k), h'.timer.trans h.timer⟩

theorem modBank (h : s.Arbitrated t) (g : Bank → Bank) : s.Arbitrated (t.modBank g) := ⟨h.surfaces, h.timer⟩

theorem modSurf (h : s.Arbitrated t) {k : Surface} {g : SurfaceState → SurfaceState}
    (same : (t.surf k).sameButLoss (g (t.surf k))) : s.Arbitrated (t.modSurf k g) := by
  refine h.trans ⟨fun f => ?_, rfl⟩
  by_cases e : f = k
  · subst e
    rwa [State.modSurf_surf]
  · rw [State.modSurf_surf_ne e]
    exact .refl _

theorem raiseSurfaceFault (h : s.Arbitrated t) (k : Surface) (f : SurfaceFault) :
    s.Arbitrated (t.raiseSurfaceFault k f) := by
  unfold State.raiseSurfaceFault
  split
  · exact h
  · have raised := h.modSurf (k := k) (g := fun x => { x with faults := x.faults.put f })
      ⟨rfl, rfl, rfl, ⟨rfl, rfl, rfl, rfl⟩, id, rfl, rfl⟩
    exact ⟨raised.surfaces, raised.timer⟩

theorem countLoss (h : s.Arbitrated t) (k : Surface) : s.Arbitrated (t.countLoss k) :=
  h.modSurf ⟨rfl, rfl, rfl, ⟨rfl, rfl, rfl, rfl⟩, fun _ => Nat.min_le_right .., rfl, rfl⟩

theorem loseRequest (h : s.Arbitrated t) (k : Surface) : s.Arbitrated (t.loseRequest k) :=
  ((h.modBank _).raiseSurfaceFault k _).countLoss k

theorem startScan (h : s.Arbitrated t) (r : BankRequest) : s.Arbitrated (t.startScan r).1 := by
  unfold State.startScan
  dsimp only
  split
  · exact (h.loseRequest r.surface).modBank fun b => { b with mode := .parked, granted := none, surface := r.surface }
  · exact ⟨h.surfaces, h.timer⟩

theorem grant (h : s.Arbitrated t) (r : BankRequest) : s.Arbitrated (t.grant r).1 := by
  unfold State.grant
  dsimp only
  split
  · exact (h.modBank _).startScan r
  · exact ⟨h.surfaces, h.timer⟩

theorem serveWaiting (n : Nat) : ∀ {t : State}, s.Arbitrated t → s.Arbitrated (t.serveWaiting n) := by
  induction n with
  | zero => exact id
  | succ n ih =>
    intro t h
    unfold State.serveWaiting
    split
    · exact h
    next r _ =>
      have granted := (h.modBank fun b => { b with waiting := b.waiting.set r.surface none }).grant r
      dsimp only
      split
      · exact ih granted
      · exact granted

theorem freeBank (h : s.Arbitrated t) : s.Arbitrated t.freeBank := serveWaiting 2 h

theorem requestArrives (h : s.Arbitrated t) (r : BankRequest) : s.Arbitrated (t.requestArrives r) := by
  have granted := h.grant r
  unfold State.requestArrives
  dsimp only
  split
  · exact h.loseRequest _
  · split
    · split
      · exact granted.freeBank
      · exact granted
    · split
      · exact (h.loseRequest _).modBank _
      · exact h.modBank _

theorem abortScan (h : s.Arbitrated t) (k : Surface) : s.Arbitrated (t.abortScan k) := by
  unfold State.abortScan
  split
  · exact (h.modBank _).freeBank
  · exact h

theorem endRetune (h : s.Arbitrated t) : s.Arbitrated t.endRetune := by
  unfold State.endRetune
  split
  next r _ =>
    have scanned := h.startScan r
    dsimp only
    split
    · exact scanned.freeBank
    · exact scanned
  next => exact (h.modBank _).freeBank

end State.Arbitrated

/-! The bank. -/

/-- The bank as its operations leave it, but for a waiting set that the freed bank is still to serve (R132, R133). -/
structure State.BankHolds (s : State) : Prop where
  granted  : ∀ r, s.bank.granted = some r → r.surface = s.bank.surface ∧ (s.surf r.surface).enabled = true
  parked   : s.bank.mode = .parked → s.bank.granted = none
  scanning : s.bank.mode = .scanning → s.bank.granted.isSome = true
  waiting  : ∀ k r, s.bank.waiting.get k = some r → r.surface = k ∧ (s.surf k).enabled = true
  rows     : s.bank.scanRows ≤ 4294967295
  geometry : ∀ k, (s.surf k).geo.inRange k

/-- No request waits for a PARKED bank (R132). -/
def State.bankServed (s : State) : Prop := s.bank.mode = .parked → ∀ k, s.bank.waiting.get k = none

theorem State.scanRowCount_le {s : State} (geometry : ∀ k, (s.surf k).geo.inRange k) (r : BankRequest) :
    s.scanRowCount r ≤ 4294967295 := by
  unfold State.scanRowCount
  dsimp only
  split
  next endTime _ _ _ _ =>
    split
    · exact Nat.zero_le _
    · have word := (endTime - s.time).isLt
      exact (Nat.div_le_self ..).trans (by omega)
  next tick e =>
    have pad : r.surface = .s1 := by
      unfold BankRequest.surface
      rw [e]
    have range := geometry .s1
    rw [pad]
    unfold Geometry.inRange at range
    exact (Nat.div_le_self ..).trans (by omega)

theorem State.loseRequest_bank (s : State) (k : Surface) :
    (s.loseRequest k).bank = { s.bank with lost := s.bank.lost.set k (s.bank.lost.get k + 1) } := by
  unfold State.loseRequest
  rw [State.raiseSurfaceFault_eq]
  rfl

theorem Bank.nextWaiting_none {b : Bank} (h : b.nextWaiting = none) (k : Surface) : b.waiting.get k = none := by
  unfold Bank.nextWaiting at h
  cases k <;> unfold PerSurface.get <;> grind

theorem Bank.nextWaiting_some {b : Bank} {r : BankRequest} (h : b.nextWaiting = some r) :
    ∃ k, b.waiting.get k = some r := by
  unfold Bank.nextWaiting at h
  have either : b.waiting.s0 = some r ∨ b.waiting.s1 = some r := by grind
  rcases either with s0 | s1
  · exact ⟨.s0, s0⟩
  · exact ⟨.s1, s1⟩

/-- How many requests wait. -/
def Bank.queue (b : Bank) : Nat := b.waiting.s0.toList.length + b.waiting.s1.toList.length

theorem Bank.queue_unwait {b : Bank} {k : Surface} {r : BankRequest} (h : b.waiting.get k = some r) :
    { b with waiting := b.waiting.set k none }.queue + 1 = b.queue := by
  cases k with
  | s0 =>
    have waits : b.waiting.s0 = some r := h
    simp [Bank.queue, PerSurface.set, waits, Nat.add_comm]
  | s1 =>
    have waits : b.waiting.s1 = some r := h
    simp [Bank.queue, PerSurface.set, waits]

theorem Bank.queue_le (b : Bank) : b.queue ≤ 2 := by
  unfold Bank.queue
  have one : ∀ o : Option BankRequest, o.toList.length ≤ 1 := fun o => by cases o <;> simp
  exact Nat.add_le_add (one _) (one _)

theorem Bank.queue_empty {b : Bank} (h : b.queue ≤ 0) (k : Surface) : b.waiting.get k = none := by
  unfold Bank.queue at h
  have none : ∀ {o : Option BankRequest}, o.toList.length = 0 → o = none := fun {o} e => by cases o <;> trivial
  cases k with
  | s0 => exact none (o := b.waiting.s0) (by omega)
  | s1 => exact none (o := b.waiting.s1) (by omega)

namespace State.BankHolds
variable {s t : State}

/-- The arbiter's other fields play no part. -/
theorem congr (h : s.BankHolds) (arbitrated : s.Arbitrated t) (granted : t.bank.granted = s.bank.granted)
    (mode : t.bank.mode = s.bank.mode) (surface : t.bank.surface = s.bank.surface)
    (waiting : t.bank.waiting = s.bank.waiting) (rows : t.bank.scanRows = s.bank.scanRows) : t.BankHolds := by
  have enabled := fun k => (arbitrated.surfaces k).enabled
  have geo := fun k => (arbitrated.surfaces k).geo
  constructor
  · rw [granted, surface]
    intro r hr
    rw [enabled]
    exact h.granted r hr
  · rw [mode, granted]; exact h.parked
  · rw [mode, granted]; exact h.scanning
  · rw [waiting]
    intro k r hr
    rw [enabled]
    exact h.waiting k r hr
  · rw [rows]; exact h.rows
  · intro k
    rw [geo]
    exact h.geometry k

theorem loseRequest (h : s.BankHolds) (k : Surface) : (s.loseRequest k).BankHolds := by
  have bank := s.loseRequest_bank k
  refine h.congr ((Arbitrated.refl s).loseRequest k) ?_ ?_ ?_ ?_ ?_
  all_goals rw [bank]

/-- A bank that parks (R141). -/
theorem park (h : s.BankHolds) (k : Surface) :
    (s.modBank fun b => { b with mode := .parked, granted := none, surface := k }).BankHolds :=
  ⟨nofun, fun _ => rfl, nofun, h.waiting, h.rows, h.geometry⟩

/-- A grant of an enabled surface's request: the bank scans, retunes, or is freed again (R137, R139, R141). -/
theorem startScan (h : s.BankHolds) {r : BankRequest} (enabled : (s.surf r.surface).enabled = true) :
    (s.startScan r).1.BankHolds ∧ ((s.startScan r).2 = true ↔ (s.startScan r).1.bank.mode = .parked) ∧
      (s.startScan r).1.bank.waiting = s.bank.waiting := by
  unfold State.startScan
  dsimp only
  split
  · refine ⟨(h.loseRequest _).park _, ⟨fun _ => rfl, fun _ => rfl⟩, ?_⟩
    show (s.loseRequest _).bank.waiting = _
    rw [State.loseRequest_bank]
  · refine ⟨⟨?_, nofun, fun _ => rfl, h.waiting, State.scanRowCount_le h.geometry r, h.geometry⟩,
      ⟨nofun, nofun⟩, rfl⟩
    intro x hx
    obtain rfl := Option.some.inj hx
    exact ⟨rfl, enabled⟩

theorem grant (h : s.BankHolds) {r : BankRequest} (enabled : (s.surf r.surface).enabled = true) :
    (s.grant r).1.BankHolds ∧ ((s.grant r).2 = true ↔ (s.grant r).1.bank.mode = .parked) ∧
      (s.grant r).1.bank.waiting = s.bank.waiting := by
  have counted : (s.modBank fun b => { b with
      grants := b.grants.set r.surface (b.grants.get r.surface + 1),
      grantTime := b.grantTime.set r.surface (some s.time), lastGranted := some r.surface }).BankHolds :=
    ⟨h.granted, h.parked, h.scanning, h.waiting, h.rows, h.geometry⟩
  unfold State.grant
  dsimp only
  split
  · exact counted.startScan enabled
  · refine ⟨⟨?_, nofun, nofun, h.waiting, h.rows, h.geometry⟩, ⟨nofun, nofun⟩, rfl⟩
    intro x hx
    obtain rfl := Option.some.inj hx
    exact ⟨rfl, enabled⟩

theorem unwait (h : s.BankHolds) (k : Surface) : (s.unwait k).BankHolds := by
  refine ⟨h.granted, h.parked, h.scanning, fun f r hr => ?_, h.rows, h.geometry⟩
  by_cases e : f = k
  · subst e
    exact nomatch (PerSurface.get_set s.bank.waiting f none).symm.trans hr
  · exact h.waiting f r ((PerSurface.get_set_ne _ e _).symm.trans hr)

/-- The freed bank serves all that waits (R141). -/
theorem serveWaiting (n : Nat) : ∀ {s : State}, s.BankHolds → s.bank.queue ≤ n →
    (s.serveWaiting n).BankHolds ∧ (s.serveWaiting n).bankServed := by
  induction n with
  | zero =>
    intro s h empty
    exact ⟨h, fun _ => Bank.queue_empty empty⟩
  | succ n ih =>
    intro s h few
    unfold State.serveWaiting
    split
    next empty => exact ⟨h, fun _ => Bank.nextWaiting_none empty⟩
    next r chosen =>
      obtain ⟨k, waits⟩ := Bank.nextWaiting_some chosen
      obtain ⟨surface, enabled⟩ := h.waiting k r waits
      obtain ⟨holds, frees, waiting⟩ := (h.unwait r.surface).grant (r := r) (surface ▸ enabled)
      dsimp only
      split
      next free =>
        refine ih holds ?_
        have fewer := Bank.queue_unwait (surface ▸ waits : s.bank.waiting.get r.surface = some r)
        have same : ((s.unwait r.surface).grant r).1.bank.queue = (s.unwait r.surface).bank.queue := by
          unfold Bank.queue
          rw [waiting]
        have unwaited : (s.unwait r.surface).bank.queue + 1 = s.bank.queue := fewer
        omega
      next busy => exact ⟨holds, fun parked => absurd (frees.2 parked) busy⟩

theorem freeBank (h : s.BankHolds) : s.freeBank.BankHolds ∧ s.freeBank.bankServed :=
  serveWaiting 2 h s.bank.queue_le

/-- A grant in a PARKED bank, which the freed bank follows up (R136, R141). -/
theorem served {x : State × Bool} (h : x.1.BankHolds) (frees : x.2 = true ↔ x.1.bank.mode = .parked) :
    (if x.2 then x.1.freeBank else x.1).BankHolds ∧ (if x.2 then x.1.freeBank else x.1).bankServed := by
  split
  next => exact h.freeBank
  next busy => exact ⟨h, fun parked => absurd (frees.2 parked) busy⟩

end State.BankHolds

/-- What the arbiter keeps of the bank between events (R132, R133). -/
structure State.BankKept (s : State) : Prop where
  holds  : s.BankHolds
  served : s.bankServed

namespace State.BankKept
variable {s t : State}

theorem congr (h : s.BankKept) (arbitrated : s.Arbitrated t) (granted : t.bank.granted = s.bank.granted)
    (mode : t.bank.mode = s.bank.mode) (surface : t.bank.surface = s.bank.surface)
    (waiting : t.bank.waiting = s.bank.waiting) (rows : t.bank.scanRows = s.bank.scanRows) : t.BankKept :=
  ⟨h.holds.congr arbitrated granted mode surface waiting rows, by
    unfold State.bankServed
    rw [mode, waiting]
    exact h.served⟩

theorem loseRequest (h : s.BankKept) (k : Surface) : (s.loseRequest k).BankKept := by
  have bank := s.loseRequest_bank k
  refine h.congr ((Arbitrated.refl s).loseRequest k) ?_ ?_ ?_ ?_ ?_
  all_goals rw [bank]

theorem unwait (h : s.BankKept) (k : Surface) : (s.unwait k).BankKept := by
  refine ⟨h.holds.unwait k, fun parked f => ?_⟩
  by_cases e : f = k
  · subst e
    exact PerSurface.get_set s.bank.waiting f none
  · exact (PerSurface.get_set_ne _ e _).trans (h.served parked f)

/-- A request that waits in a busy bank (R136). -/
theorem wait (h : s.BankKept) {r : BankRequest} (enabled : (s.surf r.surface).enabled = true)
    (busy : s.bank.mode ≠ .parked) :
    (s.modBank fun b => { b with waiting := b.waiting.set r.surface (some r) }).BankKept := by
  refine ⟨{ h.holds with waiting := fun k x hx => ?_ }, fun parked => absurd parked busy⟩
  by_cases e : k = r.surface
  · subst e
    obtain rfl := Option.some.inj ((PerSurface.get_set s.bank.waiting r.surface (some r)).symm.trans hx)
    exact ⟨rfl, enabled⟩
  · exact h.holds.waiting k x ((PerSurface.get_set_ne _ e _).symm.trans hx)

theorem requestArrives (h : s.BankKept) {r : BankRequest} (enabled : (s.surf r.surface).enabled = true) :
    (s.requestArrives r).BankKept := by
  unfold State.requestArrives
  dsimp only
  split
  · exact h.loseRequest _
  · split
    · obtain ⟨holds, frees, -⟩ := h.holds.grant enabled
      obtain ⟨holds, served⟩ := holds.served frees
      exact ⟨holds, served⟩
    next busy =>
      split
      · refine (h.loseRequest r.surface).wait ?_ ?_
        · exact (((Arbitrated.refl s).loseRequest r.surface).surfaces _).enabled.trans enabled
        · rw [State.loseRequest_bank]
          exact busy
      · exact h.wait enabled busy

theorem abortScan (h : s.BankKept) (k : Surface) : (s.abortScan k).BankKept := by
  unfold State.abortScan
  split
  · obtain ⟨holds, served⟩ := (h.holds.park s.bank.surface).freeBank
    exact ⟨holds, served⟩
  · exact h

theorem endRetune (h : s.BankKept) : s.endRetune.BankKept := by
  unfold State.endRetune
  split
  next r granted =>
    obtain ⟨holds, frees, -⟩ := h.holds.startScan (h.holds.granted r granted).2
    obtain ⟨holds, served⟩ := holds.served frees
    exact ⟨holds, served⟩
  next idle =>
    have parked : (s.modBank fun b => { b with mode := .parked }).BankHolds :=
      ⟨fun r hr => (h.holds.granted r hr), fun _ => idle, nofun, h.holds.waiting, h.holds.rows, h.holds.geometry⟩
    obtain ⟨holds, served⟩ := parked.freeBank
    exact ⟨holds, served⟩

/-- The bank parks at the end of a scan, and is freed (R141). -/
theorem parkedFree (h : s.BankKept) :
    (s.modBank fun b => { b with mode := .parked, granted := none }).freeBank.BankKept := by
  obtain ⟨holds, served⟩ := (h.holds.park s.bank.surface).freeBank
  exact ⟨holds, served⟩

theorem of_bank {b : Bank} (bank : t.bank = b)
    (granted : ∀ r, b.granted = some r → r.surface = b.surface ∧ (t.surf r.surface).enabled = true)
    (parked : b.mode = .parked → b.granted = none ∧ ∀ k, b.waiting.get k = none)
    (scanning : b.mode = .scanning → b.granted.isSome = true)
    (waiting : ∀ k r, b.waiting.get k = some r → r.surface = k ∧ (t.surf k).enabled = true)
    (rows : b.scanRows ≤ 4294967295) (geo : ∀ k, (t.surf k).geo.inRange k) : t.BankKept := by
  subst bank
  exact ⟨⟨granted, fun e => (parked e).1, scanning, waiting, rows, geo⟩, fun e => (parked e).2⟩

/-- A surface's use of the bank ends: none of its requests is left (R145, R146). -/
theorem without (h : s.BankKept) {k : Surface} {now : Word} (bank : t.bank = s.bank.without k now)
    (enabled : (t.surf (otherSurface k)).enabled = (s.surf (otherSurface k)).enabled)
    (geo : ∀ f, (t.surf f).geo.inRange f) : t.BankKept := by
  obtain ⟨⟨granted, parked, scanning, waiting, rows, -⟩, served⟩ := h
  have free : (s.bank.waiting.set k none).get k = none := PerSurface.get_set ..
  have kept : (s.bank.waiting.set k none).get (otherSurface k) = s.bank.waiting.get (otherSurface k) :=
    PerSurface.get_set_other ..
  have either : ∀ f, f = k ∨ f = otherSurface k := fun f => by cases f <;> cases k <;> simp [otherSurface]
  have left : ∀ f r, (s.bank.waiting.set k none).get f = some r → r.surface = f ∧ (t.surf f).enabled = true := by
    intro f r hr
    rcases either f with rfl | rfl
    · exact nomatch free.symm.trans hr
    · rw [enabled]
      exact waiting _ r (kept.symm.trans hr)
  unfold Bank.without at bank
  dsimp only at bank
  split at bank
  next retuning =>
    refine of_bank bank nofun (fun e => ?_) (fun e => ?_) left rows geo
    · exact nomatch retuning.1.symm.trans e
    · exact nomatch retuning.1.symm.trans e
  next notRetuning =>
    split at bank
    next scans =>
      cases waits : (s.bank.waiting.set k none).get (otherSurface k) with
      | none =>
        rw [waits] at bank
        refine of_bank bank nofun (fun _ => ⟨rfl, fun f => ?_⟩) nofun left rows geo
        rcases either f with rfl | rfl
        · exact free
        · exact waits
      | some r =>
        rw [waits] at bank
        obtain ⟨own, on⟩ := left _ _ waits
        refine of_bank bank (fun x hx => ?_) nofun nofun (fun f x hx => ?_) rows geo
        · obtain rfl := Option.some.inj hx
          exact ⟨own, own ▸ on⟩
        · rcases either f with rfl | rfl
          · have same : ((s.bank.waiting.set f none).set (otherSurface f) none).get f = none := by cases f <;> rfl
            exact nomatch same.symm.trans hx
          · exact nomatch (PerSurface.get_set ..).symm.trans hx
    next notScanning =>
      have held : ∀ r, s.bank.granted = some r → s.bank.surface ≠ k := by
        intro r hr e
        cases mode : s.bank.mode with
        | parked => exact nomatch (parked mode).symm.trans hr
        | retuning => exact notRetuning ⟨mode, e⟩
        | scanning => exact notScanning ⟨mode, e⟩
      refine of_bank bank (fun r hr => ?_) (fun idle => ⟨parked idle, fun f => ?_⟩) scanning left rows geo
      · obtain ⟨own, on⟩ := granted r hr
        have other : r.surface = otherSurface k := (either _).resolve_left (own ▸ held r hr)
        refine ⟨own, ?_⟩
        rw [other] at on ⊢
        exact enabled.trans on
      · rcases either f with rfl | rfl
        · exact free
        · exact kept.trans (served idle _)

end State.BankKept

end Sys2Proof.Machine
end

section
/-! PROOF. What the surfaces, the bank and the pad timer keep: the Touch Assemblers (R149, R156 to R163), the arbiter and
the pad ticks (R133, R154). -/

namespace Sys2Proof.Machine

/-- What the sensing keeps: the bank, the bounds of both surfaces, and the pad timer of an enabled surface 1. -/
structure State.Sensed (s : State) : Prop where
  bank     : s.BankKept
  surfaces : ∀ k, (s.surf k).bounded k
  timer    : s.pct.running = (s.surf .s1).enabled

theorem State.Sensed.iff {s : State} : s.Sensed ↔
    s.bankSafe ∧ s.sensingSafe ∧ (∀ k, (s.surf k).bounded k) ∧ s.bank.scanRows ≤ 4294967295 := by
  constructor
  · rintro ⟨⟨⟨granted, parked, scanning, waiting, rows, -⟩, served⟩, surfaces, timer⟩
    refine ⟨⟨fun r hr => (granted r hr).1, fun idle => ⟨parked idle, served idle .s0, served idle .s1⟩, scanning,
      fun k r hr => (waiting k r hr).1⟩, ⟨fun r hr => (granted r hr).2, fun k r hr => (waiting k r hr).2, timer⟩,
      surfaces, rows⟩
  · rintro ⟨⟨own, parked, scanning, mine⟩, ⟨grantedOn, waitingOn, timer⟩, surfaces, rows⟩
    refine ⟨.of_bank rfl (fun r hr => ⟨own r hr, grantedOn r hr⟩) (fun idle => ?_) scanning
      (fun k r hr => ⟨mine k r hr, waitingOn k r hr⟩) rows fun k => (surfaces k).geometry, surfaces, timer⟩
    obtain ⟨granted, s0, s1⟩ := parked idle
    exact ⟨granted, fun k => match k with
      | .s0 => s0
      | .s1 => s1⟩

theorem SurfaceState.sameButLoss.of_unversioned {x y : SurfaceState}
    (h : { y with version := 0 } = { x with version := 0 }) : x.sameButLoss y := by
  simp only [SurfaceState.mk.injEq] at h
  obtain ⟨enabled, geo, cursor, asm, held, skip, -, -⟩ := h
  exact ⟨enabled, geo, cursor, asm ▸ ⟨rfl, rfl, rfl, rfl⟩, asm ▸ id, held, skip⟩

theorem State.raiseSurfaceFault_like (s : State) (k : Surface) (fault : SurfaceFault) (f : Surface) :
    (s.surf f).sameButLoss ((s.raiseSurfaceFault k fault).surf f) :=
  ((State.Arbitrated.refl s).raiseSurfaceFault k fault).surfaces f

theorem State.BankKept.of_surf {s t : State} (h : s.BankKept) (bank : t.bank = s.bank)
    (enabled : ∀ k, (s.surf k).enabled = true → (t.surf k).enabled = true) (geo : ∀ k, (t.surf k).geo.inRange k) :
    t.BankKept := by
  refine .of_bank bank (fun r hr => ?_) (fun idle => ⟨h.holds.parked idle, h.served idle⟩) h.holds.scanning
    (fun k r hr => ?_) h.holds.rows geo
  · obtain ⟨own, on⟩ := h.holds.granted r hr
    exact ⟨own, enabled _ on⟩
  · obtain ⟨own, on⟩ := h.holds.waiting k r hr
    exact ⟨own, enabled k on⟩

/-- A surface as its frame in assembly is abandoned (R163). -/
theorem SurfaceState.bounded_abandoned {x : SurfaceState} {k : Surface} (geometry : x.geo.inRange k)
    (held : x.held.length ≤ 2) (skip : x.skip ≤ 65535) : { x with asm := .empty, cursor := 0 }.bounded k where
  geometry := geometry
  cursor := by
    show 0 < x.geo.rows
    unfold Geometry.inRange at geometry
    cases k
    · exact Nat.lt_of_lt_of_le (by decide) geometry.1
    · exact Nat.lt_of_lt_of_le (by decide) geometry.1
  rows := rfl
  nodes := nofun
  firstRow := ⟨fun _ => rfl, fun _ => rfl⟩
  counts := ⟨Nat.le_refl 0, Nat.le_refl 0, Nat.zero_le _⟩
  held := held
  skip := skip

theorem SurfaceState.bounded.abandoned {x : SurfaceState} {k : Surface} (h : x.bounded k) :
    { x with asm := .empty, cursor := 0 }.bounded k := SurfaceState.bounded_abandoned h.geometry h.held h.skip

/-- A surface whose held list and skip counter alone changed. -/
theorem SurfaceState.bounded.holding {x : SurfaceState} {k : Surface} (h : x.bounded k)
    {held : List TouchFrame} {skip : Nat}
    (few : held.length ≤ 2) (skips : skip ≤ 65535) : { x with held := held, skip := skip }.bounded k :=
  { h with held := few, skip := skips }

theorem bit_le (b : Bool) : bit b ≤ 1 := by cases b <;> decide

/-- A row that does not complete the frame (R156, R157). -/
theorem SurfaceState.bounded.addRow {x : SurfaceState} {k : Surface} (h : x.bounded k) {fresh : Bool} {instant : Word}
    {src : RowSource} {nodes : List Half} (width : nodes.length = x.geo.cols) (more : ¬ x.geo.rows ≤ x.cursor + 1) :
    { x with asm := x.addRow fresh instant src nodes, cursor := x.cursor + 1 }.bounded k where
  geometry := h.geometry
  cursor := by
    show x.cursor + 1 < x.geo.rows
    omega
  rows := by
    show (x.asm.rows ++ [_]).length = x.cursor + 1
    rw [List.length_append, h.rows]
    rfl
  nodes := fun r hr => by
    rcases List.mem_append.1 hr with old | new
    · exact h.nodes r old
    · obtain rfl := List.mem_singleton.1 new
      exact width
  firstRow := ⟨nofun, nofun⟩
  counts := by
    obtain ⟨used, noisy, lost⟩ := h.counts
    have one := bit_le fresh
    have mark := bit_le src.noisy
    show x.asm.used + bit fresh ≤ x.cursor + 1 ∧ x.asm.noisyRows + bit src.noisy ≤ x.cursor + 1 ∧ _
    exact ⟨by omega, by omega, lost⟩
  held := h.held
  skip := h.skip

namespace State.Sensed
variable {s t : State}

/-- An operation of the arbiter. -/
theorem arbitrated (h : s.Sensed) (arbitrated : s.Arbitrated t) (bank : t.BankKept) : t.Sensed where
  bank := bank
  surfaces k := (h.surfaces k).sameButLoss (arbitrated.surfaces k)
  timer := by rw [arbitrated.timer, (arbitrated.surfaces .s1).enabled, h.timer]

theorem of_same (h : s.Sensed) (surfaces : ∀ k, t.surf k = s.surf k) (bank : t.bank = s.bank) (timer : t.pct = s.pct) :
    t.Sensed where
  bank := h.bank.of_surf bank (fun k => by rw [surfaces]; exact id) fun k => by
    rw [surfaces]
    exact (h.surfaces k).geometry
  surfaces k := surfaces k ▸ h.surfaces k
  timer := by rw [timer, surfaces, h.timer]

/-- The rewriting of records changes nothing of what the sensing keeps. -/
theorem of_bare (h : s.Sensed) (same : t.bare = s.bare) : t.Sensed := by
  have shown : ∀ k, { t.surf k with version := 0 } = { s.surf k with version := 0 }
    | .s0 => congrArg (·.surfaces.s0) same
    | .s1 => congrArg (·.surfaces.s1) same
  have like : s.Arbitrated t :=
    ⟨fun k => .of_unversioned (shown k), show t.bare.pct = s.bare.pct from congrArg State.pct same⟩
  exact h.arbitrated like (h.bank.congr like (congrArg (·.bank.granted) same) (congrArg (·.bank.mode) same)
    (congrArg (·.bank.surface) same) (congrArg (·.bank.waiting) same) (congrArg (·.bank.scanRows) same))

theorem of_within {F : Set Part} (h : s.Sensed) (within : Within F s t) (out : .sensing ∉ F) : t.Sensed := by
  obtain ⟨surfaces, bank, timer⟩ := within.sensing out
  exact h.of_same (fun k => congrArg (·.get k) surfaces) bank timer

theorem modSurf (h : s.Sensed) {k : Surface} {g : SurfaceState → SurfaceState}
    (enabled : (g (s.surf k)).enabled = (s.surf k).enabled) (bounded : (g (s.surf k)).bounded k) :
    (s.modSurf k g).Sensed := by
  have on : ∀ f, ((s.modSurf k g).surf f).enabled = (s.surf f).enabled := fun f => by
    by_cases e : f = k
    · subst e
      rwa [State.modSurf_surf]
    · rw [State.modSurf_surf_ne e]
  have bounds : ∀ f, ((s.modSurf k g).surf f).bounded f := fun f => by
    by_cases e : f = k
    · subst e
      rwa [State.modSurf_surf]
    · rw [State.modSurf_surf_ne e]
      exact h.surfaces f
  exact ⟨h.bank.of_surf rfl (fun f e => (on f).trans e) fun f => (bounds f).geometry, bounds,
    h.timer.trans (on .s1).symm⟩

theorem abandonFrame (h : s.Sensed) (k : Surface) : (s.abandonFrame k).Sensed := h.modSurf rfl (h.surfaces k).abandoned

theorem raiseSurfaceFault (h : s.Sensed) (k : Surface) (f : SurfaceFault) : (s.raiseSurfaceFault k f).Sensed := by
  unfold State.raiseSurfaceFault
  split
  · exact h
  · have raised := h.modSurf (k := k) (g := fun x => { x with faults := x.faults.put f }) rfl
      { h.surfaces k with }
    exact raised.of_same (fun _ => rfl) rfl rfl

theorem startWrite (h : s.Sensed) : s.startWrite.Sensed := by
  unfold State.startWrite
  split
  next k _ _ _ =>
    split
    · exact h
    next f held own =>
      have few := (h.surfaces k).held
      rw [own] at few
      have rest := h.modSurf (k := k) (g := fun x => { x with held := held, skip := 0 }) rfl
        ((h.surfaces k).holding (Nat.le_of_succ_le few) (Nat.zero_le _))
      exact rest.of_same (fun _ => rfl) rfl rfl
  next => exact h

/-- The held list takes one more frame once its head has been discarded (R161). -/
theorem discardIfFull (h : s.Sensed) (k : Surface) :
    (s.discardIfFull k).Sensed ∧ ((s.discardIfFull k).surf k).held.length ≤ 1 := by
  have few := (h.surfaces k).held
  unfold State.discardIfFull
  split
  next =>
    have rest : ((s.surf k).held.drop 1).length ≤ 1 := by
      rw [List.length_drop]
      omega
    have dropped := h.modSurf (k := k) (g := fun x => { x with held := x.held.drop 1, skip := satHalf x.skip }) rfl
      ((h.surfaces k).holding (Nat.le_succ_of_le rest) (Nat.min_le_right ..))
    refine ⟨dropped.raiseSurfaceFault k .frameSkipped, ?_⟩
    rw [(State.raiseSurfaceFault_like ..).held, State.modSurf_surf]
    exact rest
  next notFull => exact ⟨h, by omega⟩

theorem joinHeld (h : s.Sensed) (k : Surface) (f : TouchFrame) : (s.joinHeld k f).Sensed := by
  obtain ⟨room, few⟩ := h.discardIfFull k
  have joined := room.modSurf (k := k)
    (g := fun x => { x with held := x.held ++ [{ f with joined := s.joinCounter }] }) rfl
    ((room.surfaces k).holding (by rw [List.length_append]; exact Nat.add_le_add_right few 1) (room.surfaces k).skip)
  unfold State.joinHeld
  exact startWrite (joined.of_same (fun _ => rfl) rfl rfl)

/-- A row of the surface's width is taken (R156). -/
theorem takeRow (h : s.Sensed) (k : Surface) (fresh : Bool) (instant : Word) (src : RowSource) {nodes : List Half}
    (width : nodes.length = (s.surf k).geo.cols) : (s.takeRow k fresh instant src nodes).1.Sensed := by
  unfold State.takeRow
  dsimp only
  split
  · exact (h.modSurf (k := k) rfl (h.surfaces k).abandoned).joinHeld k _
  next more =>
    exact h.modSurf (k := k)
      (g := fun y => { y with asm := (s.surf k).addRow fresh instant src nodes, cursor := y.cursor + 1 }) rfl
      ((h.surfaces k).addRow width more)

end State.Sensed

/-! Taking rows leaves the geometries as they are. -/

theorem State.modSurf_geo {s : State} (k f : Surface) {g : SurfaceState → SurfaceState}
    (same : ∀ x, (g x).geo = x.geo) : ((s.modSurf k g).surf f).geo = (s.surf f).geo := by
  by_cases e : f = k
  · subst e
    rw [State.modSurf_surf, same]
  · rw [State.modSurf_surf_ne e]

theorem State.startWrite_geo (s : State) (f : Surface) : (s.startWrite.surf f).geo = (s.surf f).geo := by
  unfold State.startWrite
  split
  next k _ _ _ =>
    split
    next => rfl
    next held _ => exact s.modSurf_geo k f (g := fun x => { x with held := held, skip := 0 }) fun _ => rfl
  next => rfl

theorem State.joinHeld_geo (s : State) (k f : Surface) (x : TouchFrame) :
    ((s.joinHeld k x).surf f).geo = (s.surf f).geo := by
  have discarded : ((s.discardIfFull k).surf f).geo = (s.surf f).geo := by
    unfold State.discardIfFull
    split
    · rw [(State.raiseSurfaceFault_like ..).geo]
      exact s.modSurf_geo k f fun _ => rfl
    · rfl
  unfold State.joinHeld
  rw [State.startWrite_geo]
  exact (State.modSurf_geo k f (g := fun y => { y with held := y.held ++ [{ x with joined := s.joinCounter }] })
    fun _ => rfl).trans discarded

theorem State.takeRow_geo (s : State) (k : Surface) (fresh : Bool) (instant : Word) (src : RowSource) (nodes : List Half)
    (f : Surface) : ((s.takeRow k fresh instant src nodes).1.surf f).geo = (s.surf f).geo := by
  unfold State.takeRow
  dsimp only
  split
  · rw [State.joinHeld_geo]
    exact s.modSurf_geo k f fun _ => rfl
  · exact s.modSurf_geo k f fun _ => rfl

namespace State.Sensed
variable {s t : State}

theorem takeRows (k : Surface) (start : Word) (rowTime : Nat) (src : RowSource) {nodes : Nat → List Half} (n : Nat) :
    ∀ {s : State} (i : Nat) (fresh : Bool), s.Sensed → (∀ i, (nodes i).length = (s.surf k).geo.cols) →
      (s.takeRows k start rowTime src nodes n i fresh).Sensed := by
  induction n with
  | zero => exact fun _ _ h _ => h
  | succ n ih =>
    intro s i fresh h width
    refine ih (i + 1) _ (h.takeRow k fresh _ src (width i)) fun j => ?_
    rw [State.takeRow_geo]
    exact width j

theorem rowNodes_length (delivered : List Half) (draw cols i : Nat) : (rowNodes delivered draw cols i).length = cols := by
  unfold rowNodes
  rw [List.length_map, List.length_range]

theorem parkedFree (h : s.Sensed) : (s.modBank fun b => { b with mode := .parked, granted := none }).freeBank.Sensed :=
  h.arbitrated ((Arbitrated.refl s).modBank _).freeBank h.bank.parkedFree

/-- A scan completes (R140, R158). -/
theorem completeScan (h : s.Sensed) (r : BankRequest) (nodes : List Half) : (s.completeScan r nodes).Sensed := by
  unfold State.completeScan
  dsimp only
  refine parkedFree ?_
  have drawn : ∀ b : Prop, [Decidable b] → (if b then (s.draw).2 else s).Sensed ∧
      ((if b then (s.draw).2 else s).surf r.surface).geo = (s.surf r.surface).geo := fun b _ => by
    split
    · exact ⟨h.of_same (fun _ => rfl) rfl rfl, rfl⟩
    · exact ⟨h, rfl⟩
  obtain ⟨start, geo⟩ := drawn (nodes.length < s.bank.scanRows * (s.surf r.surface).geo.cols)
  have rows := start.takeRows r.surface s.bank.scanStart (s.surf r.surface).geo.rowTime r.particulars.rowSource
    (nodes := rowNodes nodes (s.draw).1 (s.surf r.surface).geo.cols) s.bank.scanRows 0 true
    fun i => by rw [rowNodes_length, geo]
  split
  · exact rows.raiseSurfaceFault _ _
  · exact rows

theorem requestArrives (h : s.Sensed) {r : BankRequest} (enabled : (s.surf r.surface).enabled = true) :
    (s.requestArrives r).Sensed :=
  h.arbitrated ((Arbitrated.refl s).requestArrives r) (h.bank.requestArrives enabled)

theorem endRetune (h : s.Sensed) : s.endRetune.Sensed := h.arbitrated (Arbitrated.refl s).endRetune h.bank.endRetune

theorem expireRequest (h : s.Sensed) (k : Surface) : (s.expireRequest k).Sensed :=
  h.arbitrated (((Arbitrated.refl s).modBank _).loseRequest k) ((h.bank.unwait k).loseRequest k)

/-- A window request of an enabled surface 0 (R90). -/
theorem raiseWindow (h : s.Sensed) : s.raiseWindow.Sensed := by
  unfold State.raiseWindow
  dsimp only
  split
  · split
    next enabled => exact h.requestArrives enabled
    next => exact h
  · exact h

/-- A pad tick asks for surface 1 (R154). -/
theorem tickPad (h : s.Sensed) (running : s.pct.running = true) : s.tickPad.Sensed := by
  have ticked : State.Sensed { s with pct := { s.pct with tickCount := s.pct.tickCount + 1 } } :=
    ⟨h.bank.of_surf rfl (fun _ => id) fun k => (h.surfaces k).geometry, h.surfaces, h.timer⟩
  have asked := ticked.requestArrives (r := s.padRequest (s.pct.tickCount + 1)) (h.timer.symm.trans running)
  exact ⟨asked.bank.of_surf rfl (fun _ => id) fun k => (asked.surfaces k).geometry, asked.surfaces, asked.timer⟩

end State.Sensed

end Sys2Proof.Machine
end

section
/-! PROOF. What geometries, enabling and link stops leave of the sensing (R35 to R37, R145, R146, R150 to R155). -/

namespace Sys2Proof.Machine

/-- The geometry that a SET_SURFACE which passes its checks carries (R150). -/
theorem RequestRecord.setSurfaceArgs_inRange {r : RequestRecord} {k : Surface} {geo : Geometry}
    (h : r.setSurfaceArgs k = .ok geo) : geo.inRange k := by
  unfold RequestRecord.setSurfaceArgs at h
  dsimp only at h
  cases k with
  | s0 =>
    dsimp only at h
    split at h
    · exact nomatch h
    · split at h
      · exact nomatch h
      · split at h
        · exact nomatch h
        · split at h
          · exact nomatch h
          · obtain rfl := Except.ok.inj h
            show 4 ≤ _ ∧ _
            dsimp only
            omega
  | s1 =>
    dsimp only at h
    split at h
    · exact nomatch h
    · split at h
      · exact nomatch h
      · split at h
        · exact nomatch h
        · split at h
          · exact nomatch h
          · split at h
            · exact nomatch h
            · split at h
              · exact nomatch h
              · split at h
                · exact nomatch h
                · obtain rfl := Except.ok.inj h
                  show 2 ≤ _ ∧ _
                  dsimp only
                  omega

/-- All but the sensing. -/
def beyondSensing : Set Part := {x | x ≠ .sensing}

namespace State.Sensed
variable {s t : State}

theorem beyond (h : s.Sensed) (within : Within beyondSensing s t) : t.Sensed := h.of_within within fun out => out rfl

theorem endBankUse (h : s.Sensed) (k : Surface) : (s.endBankUse k).Sensed := by
  rw [State.endBankUse_eq (Sensed.iff.1 h).1 k]
  exact ⟨h.bank.without rfl rfl fun f => (h.surfaces f).geometry, h.surfaces, h.timer⟩

/-! Link stops (R35 to R37). -/

theorem linkStop (h : s.Sensed) (p : Pipe) : (s.linkStop p).1.Sensed := by
  have own : ∀ q, Part.pipe q ∈ beyondSensing := fun _ => nofun
  have parked := ((Within.refl beyondSensing s).modLc (own p) fun lc => { lc with parkedAdmit := none }).modPb (own p)
    fun b => { b with phase := .none, negotiate := none }
  have aborted := parked.modFr (own p) fun r => { r with frameNow := none, bands := [] }
  have stopped := (((aborted.modLc (own p) fun lc => { lc.stopTimer with outstanding := none }).modPb (own p)
    fun b => b.stopped).modFr (own p) fun r => r.stopped).setLock (own p) fun l => l.dropHistory .notLocking
  cases p with
  | p0 => exact h.beyond stopped
  | p1 => exact ((h.beyond stopped).endBankUse .s0).abandonFrame .s0

theorem leaveLink (h : s.Sensed) (p : Pipe) : (s.leaveLink p).1.Sensed := by
  unfold State.leaveLink
  split
  · exact h.linkStop p
  · dsimp only
    exact h.beyond ((Within.refl beyondSensing s).modLc nofun _)

theorem enterRecovery (h : s.Sensed) (p : Pipe) (why : StopReason) : (s.enterRecovery p why).1.Sensed := by
  have own : Part.pipe p ∈ beyondSensing := nofun
  have entered := (((Within.refl beyondSensing (s.leaveLink p).1).setLink own .recovery).modLc own fun lc =>
    { lc with stopReason := why, recoveryCount := min 255 (lc.recoveryCount + 1), waiting := [],
              quietEnd := some (s.after quietIntervalTU) }).raisePipeFault own .recovery
  refine (h.leaveLink p).beyond (t := (s.enterRecovery p why).1) ?_
  unfold State.enterRecovery
  dsimp only
  split
  · exact entered.raisePipeFault own _
  · exact entered

theorem enterOff (h : s.Sensed) (p : Pipe) (why : StopReason) : (s.enterOff p why).1.Sensed := by
  have own : Part.pipe p ∈ beyondSensing := nofun
  unfold State.enterOff
  dsimp only
  exact (h.leaveLink p).beyond (((Within.refl beyondSensing _).setLink own .off).modLc own _)

theorem finish {x : Handing} (h : x.1.Sensed) : x.finish.Sensed := h.beyond (Within.refl beyondSensing x.1).finish

theorem missFrame (h : s.Sensed) (p : Pipe) : (s.missFrame p).1.Sensed := by
  have own : Part.pipe p ∈ beyondSensing := nofun
  have missed := h.beyond (((Within.refl beyondSensing s).modLc own fun lc =>
    { lc.stopTimer with outstanding := none, missedAcks := lc.missedAcks + 1 }).raisePipeFault own .ackMissed)
  unfold State.missFrame
  dsimp only
  split
  · exact missed.enterRecovery p _
  · exact missed

theorem receiveNak (h : s.Sensed) (p : Pipe) : (s.receiveNak p).Sensed := by
  unfold State.receiveNak
  split
  · exact (h.enterRecovery p _).finish
  · exact (h.missFrame p).finish
  · exact h

theorem receivePanelFault (h : s.Sensed) (p : Pipe) (code : Byte) : (s.receivePanelFault p code).Sensed := by
  have stored := h.beyond ((Within.refl beyondSensing s).modLc (p := p) nofun fun lc => { lc with panelFault := code })
  unfold State.receivePanelFault
  dsimp only
  split
  · exact (stored.enterRecovery p _).finish
  · exact (stored.enterRecovery p _).finish
  · exact (stored.enterRecovery p _).finish
  · exact stored
  · exact stored
  · exact stored

/-- A frame start of either pipe touches no sensing (R85, R86). -/
theorem starts_beyond (s : State) (p : Pipe) : Within.Starts beyondSensing s p := ⟨nofun, fun _ => nofun⟩

theorem receive (h : s.Sensed) (p : Pipe) : ∀ m : RxMessage, (s.receive p m).Sensed
  | .list modes => h.beyond ((Within.refl _ s).receiveList (starts_beyond s p) modes)
  | .ack e v => h.beyond ((Within.refl _ s).receiveAck (starts_beyond s p) e v)
  | .nak => h.receiveNak p
  | .panelFault code => h.receivePanelFault p code

theorem probeExpired (h : s.Sensed) (p : Pipe) : (s.probeExpired p).Sensed := by
  have own : Part.pipe p ∈ beyondSensing := nofun
  have expired := (Within.refl beyondSensing s).modLc own fun lc => { lc with answerDeadline := none }
  unfold State.probeExpired
  dsimp only
  split
  · exact h.beyond ((expired.modLc own _).sendMessage own _ _)
  · exact ((h.beyond expired).enterOff p _).finish

theorem restartPipe (h : s.Sensed) (p : Pipe) : (s.restartPipe p).Sensed := by
  have own : Part.pipe p ∈ beyondSensing := nofun
  have aborted := (((Within.refl beyondSensing (s.enterOff p .hostRestart).1).modLc own fun lc =>
    { lc with parkedAdmit := none }).modPb own fun b => { b with phase := .none, negotiate := none }).modFr own
    fun r => { r with frameNow := none, bands := [] }
  exact finish (x := (_, _)) ((h.enterOff p _).beyond (aborted.enterProbing own))

theorem decidePipeRestart (h : s.Sensed) (r : RequestRecord) : (s.decidePipeRestart r).Sensed := by
  unfold State.decidePipeRestart
  split
  next => exact h.beyond ((Within.refl _ s).finishTake r _ _)
  next p _ =>
    have done := (h.beyond ((Within.refl _ s).finishTake r .done [])).restartPipe p
    exact done.of_bare (by rw [State.pipeRewritten_bare, publish_bare])

theorem startWindow (h : s.Sensed) : s.startWindow.Sensed := by
  have own : Part.pipe .p1 ∈ beyondSensing := nofun
  have next : Within beyondSensing s ((s.slotCompleted .p1 s.pipes.p1.fr.currentSlot).1.nextSlot .p1) :=
    ((Within.refl _ s).slotCompleted own _).modFr own _
  exact finish (x := (_, _)) (h.beyond (t := (State.nextSlot _ .p1).holdPanel) (next.sendMessage own _ _)).raiseWindow

/-! SET_SURFACE, SURFACE_ENABLE, SET_BANK and CLEAR_FAULTS (R142, R150 to R155, R186). -/

theorem abandonFrame_enabled (t : State) (k f : Surface) :
    ((t.abandonFrame k).surf f).enabled = (t.surf f).enabled := by
  unfold State.abandonFrame
  by_cases e : f = k
  · subst e
    rw [State.modSurf_surf]
  · rw [State.modSurf_surf_ne e]

/-- A surface whose frame is abandoned as its geometry or its use of the bank ends (R151, R155). -/
theorem of_abandonFrame {k : Surface} (bank : t.BankKept) (others : ∀ f, f ≠ k → (t.surf f).bounded f)
    (held : (t.surf k).held.length ≤ 2) (skip : (t.surf k).skip ≤ 65535) :
    (t.abandonFrame k).BankKept ∧ ∀ f, ((t.abandonFrame k).surf f).bounded f := by
  have bounds : ∀ f, ((t.abandonFrame k).surf f).bounded f := fun f => by
    unfold State.abandonFrame
    by_cases e : f = k
    · subst e
      rw [State.modSurf_surf]
      exact SurfaceState.bounded_abandoned (bank.holds.geometry f) held skip
    · rw [State.modSurf_surf_ne e]
      exact others f e
  exact ⟨bank.of_surf rfl (fun f on => (abandonFrame_enabled t k f).trans on) fun f => (bounds f).geometry, bounds⟩

theorem setGeometry (h : s.Sensed) (k : Surface) {geo : Geometry} (range : geo.inRange k) :
    (s.setGeometry k geo).Sensed := by
  have set : ((s.modSurf k fun x => { x with geo := geo }).surf k) = { s.surf k with geo := geo } := State.modSurf_surf ..
  have other : ∀ f, f ≠ k → (s.modSurf k fun x => { x with geo := geo }).surf f = s.surf f := fun f e =>
    State.modSurf_surf_ne e
  have on : ∀ f, ((s.modSurf k fun x => { x with geo := geo }).surf f).enabled = (s.surf f).enabled := fun f => by
    by_cases e : f = k
    · subst e
      rw [set]
    · rw [other f e]
  have aborting := (Arbitrated.refl (s.modSurf k fun x => { x with geo := geo })).abortScan k
  have bank : (s.modSurf k fun x => { x with geo := geo }).BankKept := by
    refine h.bank.of_surf rfl (fun f e => (on f).trans e) fun f => ?_
    by_cases e : f = k
    · subst e
      rwa [set]
    · rw [other f e]
      exact (h.surfaces f).geometry
  have like := aborting.surfaces k
  rw [set] at like
  obtain ⟨kept, bounds⟩ := of_abandonFrame (k := k) (bank.abortScan k)
    (fun f e => ((other f e).symm ▸ h.surfaces f : SurfaceState.bounded _ f).sameButLoss (aborting.surfaces f))
    (by rw [like.held]; exact (h.surfaces k).held) (by rw [like.skip]; exact (h.surfaces k).skip)
  have runs : s.pct.running = ((State.abandonFrame _ k).surf .s1).enabled :=
    (h.timer.trans (on .s1).symm).trans ((aborting.surfaces .s1).enabled.symm.trans (abandonFrame_enabled _ k .s1).symm)
  have same : ((s.modSurf k fun x => { x with geo := geo }).abortScan k).pct = s.pct := aborting.timer
  have done : State.Sensed (((s.modSurf k fun x => { x with geo := geo }).abortScan k).abandonFrame k) :=
    ⟨kept, bounds, (congrArg PadTimer.running same).trans runs⟩
  unfold State.setGeometry
  dsimp only
  cases k with
  | s0 => exact done
  | s1 =>
    dsimp only
    split
    · exact ⟨kept.of_surf rfl (fun _ => id) fun f => (bounds f).geometry, bounds, done.timer⟩
    · exact done

/-- Whether a surface is enabled plays no part in its bounds. -/
theorem bounded_switched (h : s.Sensed) (k : Surface) (on : Bool) (f : Surface) :
    ((s.modSurf k fun x => { x with enabled := on }).surf f).bounded f := by
  by_cases e : f = k
  · subst e
    rw [State.modSurf_surf]
    exact { h.surfaces f with }
  · rw [State.modSurf_surf_ne e]
    exact h.surfaces f

theorem turnOn (h : s.Sensed) (k : Surface) : (s.turnOn k).Sensed := by
  have bounds := h.bounded_switched k true
  have bank : (s.modSurf k fun x => { x with enabled := true }).BankKept :=
    h.bank.of_surf rfl (fun f on => by
      by_cases e : f = k
      · subst e
        rw [State.modSurf_surf]
      · rwa [State.modSurf_surf_ne e]) fun f => (bounds f).geometry
  cases k with
  | s0 => exact ⟨bank, bounds, h.timer⟩
  | s1 =>
    refine State.Sensed.tickPad ⟨?_, bounds, rfl⟩ rfl
    exact bank.of_surf rfl (fun _ => id) fun f => (bounds f).geometry

theorem turnOff (h : s.Sensed) (k : Surface) : (s.turnOff k).Sensed := by
  have bounds := h.bounded_switched k false
  have ended := State.endBankUse_eq (s := s.modSurf k fun x => { x with enabled := false }) (Sensed.iff.1 h).1 k
  have bank : ((s.modSurf k fun x => { x with enabled := false }).endBankUse k).BankKept := by
    rw [ended]
    refine h.bank.without rfl ?_ fun f => (bounds f).geometry
    show ((s.modSurf k fun x => { x with enabled := false }).surf (otherSurface k)).enabled = _
    rw [State.modSurf_surf_other]
  have surf : ∀ f, ((s.modSurf k fun x => { x with enabled := false }).endBankUse k).surf f =
      (s.modSurf k fun x => { x with enabled := false }).surf f := fun f => by rw [ended]; rfl
  obtain ⟨kept, off⟩ := of_abandonFrame (k := k) bank (fun f _ => surf f ▸ bounds f)
    (by rw [surf]; exact (bounds k).held)
    (by rw [surf]; exact (bounds k).skip)
  cases k with
  | s0 =>
    refine ⟨kept, off, ?_⟩
    show (State.endBankUse _ _).pct.running = ((State.abandonFrame _ .s0).surf .s1).enabled
    rw [abandonFrame_enabled, surf, ended]
    exact h.timer
  | s1 =>
    refine ⟨kept.of_surf rfl (fun _ => id) fun f => (off f).geometry, off, ?_⟩
    show false = ((State.abandonFrame _ .s1).surf .s1).enabled
    rw [abandonFrame_enabled, surf]
    rfl

theorem decideSetSurface (h : s.Sensed) (r : RequestRecord) : (s.decideSetSurface r).Sensed := by
  unfold State.decideSetSurface
  split
  next => exact h.beyond ((Within.refl _ s).finishTake r _ _)
  next k _ =>
    split
    next => exact h.beyond ((Within.refl _ s).finishBadValue r _)
    next geo args =>
      exact (h.beyond ((Within.refl _ s).finishTake r _ _)).setGeometry k (RequestRecord.setSurfaceArgs_inRange args)

theorem decideSurfaceEnable (h : s.Sensed) (r : RequestRecord) : (s.decideSurfaceEnable r).Sensed := by
  unfold State.decideSurfaceEnable
  split
  next => exact h.beyond ((Within.refl _ s).finishTake r _ _)
  next k _ =>
    split
    next => exact h.beyond ((Within.refl _ s).finishBadValue r _)
    next =>
      have done := h.beyond ((Within.refl _ s).finishTake r .done [])
      dsimp only
      split
      · exact done.turnOn k
      · exact done.turnOff k
      · exact done
      · exact done

theorem decideSetBank (h : s.Sensed) (r : RequestRecord) : (s.decideSetBank r).Sensed := by
  unfold State.decideSetBank
  split
  next => exact h.beyond ((Within.refl _ s).finishBadValue r _)
  next policy _ =>
    have done := h.beyond ((Within.refl _ s).finishTake r .done [])
    have like := (Arbitrated.refl (s.finishTake r .done [])).modBank fun b => { b with policy := policy }
    exact done.arbitrated like (done.bank.congr like rfl rfl rfl rfl rfl)

theorem decideClearFaults (h : s.Sensed) (r : RequestRecord) : (s.decideClearFaults r).Sensed := by
  unfold State.decideClearFaults
  split
  next p _ => exact h.beyond (((Within.refl beyondSensing s).finishTake r _ _).modPipe (p := p) nofun _)
  next k _ _ =>
    have done := h.beyond ((Within.refl _ s).finishTake r .done [BitVec.ofNat 32 (s.surf k).faults.code])
    exact done.modSurf rfl { done.surfaces k with }
  next => exact h.beyond ((Within.refl _ s).finishTake r _ _)

end State.Sensed

end Sys2Proof.Machine
end

section
/-! PROOF. Every operation keeps the sensing, and the quiet spans and the reference in their ranges (R58, R69, R100). -/

namespace Sys2Proof.Machine

namespace State.Sensed
variable {s v : State}

theorem endWrite (h : s.Sensed) : s.endWrite.Sensed := by
  unfold State.endWrite
  split
  next => exact startWrite (h.of_same (fun _ => rfl) rfl rfl)
  next => exact h

theorem takeEdge (h : s.Sensed) : s.takeEdge.Sensed :=
  h.beyond (.takeEdge (F := beyondSensing) nofun fun p => starts_beyond s p)

theorem generatePulse (h : s.Sensed) : s.generatePulse.Sensed :=
  h.beyond (.generatePulse (F := beyondSensing) nofun fun p => starts_beyond s p)

end State.Sensed

theorem Acts.sensed {s v : State} (h : Acts s v) (hs : s.Sensed) : v.Sensed := by
  have start := Within.refl beyondSensing s
  have own : ∀ p, Part.pipe p ∈ beyondSensing := fun _ => nofun
  have starts := State.Sensed.starts_beyond s
  cases h with
  | outside v within => exact hs.of_within within (Set.notMem_empty _)
  | claim b => exact (hs.of_same (t := State.modRpw (s.unclaimed b) _) (fun _ => rfl) rfl rfl).startWrite
  | setOffers r _ => exact hs.beyond (.decideSetOffers own r)
  | negotiate r _ => exact hs.beyond (.decideNegotiate own r)
  | admission r _ => exact hs.beyond (.decideAdmit own r)
  | restart r _ => exact hs.decidePipeRestart r
  | setQuiet r _ => exact hs.beyond (.decideSetQuiet (F := beyondSensing) nofun r)
  | urgentBand r _ => exact hs.beyond (.decideUrgentBand starts r)
  | frameNow r _ => exact hs.beyond (.decideFrameNow starts r)
  | setReference r _ => exact hs.beyond (.decideSetReference (F := beyondSensing) nofun r)
  | setSurface r _ => exact hs.decideSetSurface r
  | surfaceEnable r _ => exact hs.decideSurfaceEnable r
  | setBank r _ => exact hs.decideSetBank r
  | clearFaults r _ => exact hs.decideClearFaults r
  | receive p m => exact hs.receive p m
  | sent p => exact hs.beyond (start.endSending (starts p))
  | probe p _ => exact hs.probeExpired p
  | refusal p _ => exact (hs.enterRecovery p _).finish
  | miss p _ => exact (hs.missFrame p).finish
  | quietEnd p _ => exact hs.beyond (start.enterProbing (own p))
  | aligned p _ => exact hs.beyond (start.startFrame (starts p) _).finish
  | deadline p _ => exact hs.beyond (start.startFrame (starts p) _).finish
  | burst p _ => exact hs.beyond ((start.modFr (own p) _).releaseSlot (own p) _)
  | window _ => exact hs.startWindow
  | blank p _ => exact hs.beyond (start.startBlank (starts p))
  | trim p _ => exact hs.beyond (start.modPipe (own p) _)
  | trimEnd p _ => exact hs.beyond (start.endTrim (starts p))
  | stretchEnd p _ => exact hs.beyond (start.endFrame (starts p)).finish
  | silence p _ => exact hs.beyond (start.loseSource (own p) id)
  | edge _ => exact hs.takeEdge
  | pulse _ => exact hs.generatePulse
  | absence => exact hs.beyond (start.modRef nofun _)
  | tick due => exact hs.tickPad (Bool.and_eq_true_iff.1 due).1
  | retuned _ => exact hs.endRetune
  | scanned r nodes _ _ => exact hs.completeScan r nodes
  | expiry k _ => exact hs.expireRequest k
  | written => exact hs.endWrite

/-! The stored form of quiet spans (R58, R69). -/

theorem mem_insertSpan {x y : Span} {xs : List Span} : y ∈ insertSpan x xs ↔ y = x ∨ y ∈ xs := by
  induction xs with
  | nil => simp [insertSpan]
  | cons z zs ih =>
    unfold insertSpan
    split
    · exact List.mem_cons
    · rw [List.mem_cons, ih, List.mem_cons]
      tauto

theorem length_insertSpan (x : Span) (xs : List Span) : (insertSpan x xs).length = xs.length + 1 := by
  induction xs with
  | nil => rfl
  | cons z zs ih =>
    unfold insertSpan
    split
    · rfl
    · rw [List.length_cons, ih, List.length_cons]

theorem sorted_insertSpan {x : Span} {xs : List Span} (sorted : xs.Pairwise fun y z => y.start ≤ z.start) :
    (insertSpan x xs).Pairwise fun y z => y.start ≤ z.start := by
  induction xs with
  | nil => exact List.pairwise_singleton ..
  | cons z zs ih =>
    obtain ⟨first, rest⟩ := List.pairwise_cons.1 sorted
    unfold insertSpan
    split
    next before =>
      refine List.pairwise_cons.2 ⟨fun y hy => ?_, sorted⟩
      rcases List.mem_cons.1 hy with rfl | old
      · omega
      · have := first y old
        omega
    next after =>
      refine List.pairwise_cons.2 ⟨fun y hy => ?_, ih rest⟩
      rcases mem_insertSpan.1 hy with rfl | old
      · omega
      · exact first y old

theorem sortSpans_spec (xs : List Span) : (sortSpans xs).length = xs.length ∧
    (∀ y, y ∈ sortSpans xs ↔ y ∈ xs) ∧ (sortSpans xs).Pairwise fun y z => y.start ≤ z.start := by
  induction xs with
  | nil => exact ⟨rfl, fun _ => .rfl, .nil⟩
  | cons x xs ih =>
    obtain ⟨length, members, sorted⟩ := ih
    refine ⟨?_, fun y => ?_, sorted_insertSpan sorted⟩
    · exact (length_insertSpan ..).trans (congrArg (· + 1) length)
    · exact mem_insertSpan.trans ((or_congr_right (members y)).trans List.mem_cons.symm)

/-- Spans that rise by their starts, joined: each in range, none before the first start, and apart. -/
theorem mergeSpansFrom_spec (ys : List Span) : ∀ kept : Span, (kept :: ys).Pairwise (fun y z => y.start ≤ z.start) →
    (∀ x ∈ kept :: ys, x.start < x.stop ∧ x.stop ≤ 4000000) →
    (mergeSpansFrom kept ys).length ≤ ys.length + 1 ∧
      (∀ x ∈ mergeSpansFrom kept ys, kept.start ≤ x.start ∧ x.start < x.stop ∧ x.stop ≤ 4000000) ∧
      (mergeSpansFrom kept ys).Pairwise fun x y => x.stop < y.start := by
  induction ys with
  | nil =>
    intro kept _ range
    refine ⟨Nat.le_refl _, fun x hx => ?_, List.pairwise_singleton ..⟩
    obtain rfl := List.mem_singleton.1 hx
    exact ⟨Nat.le_refl _, range x hx⟩
  | cons y ys ih =>
    intro kept sorted range
    obtain ⟨first, rest⟩ := List.pairwise_cons.1 sorted
    have keptRange := range kept (List.mem_cons_self ..)
    have yRange := range y (List.mem_cons_of_mem _ (List.mem_cons_self ..))
    unfold mergeSpansFrom
    split
    next touches =>
      obtain ⟨length, each, apart⟩ := ih { kept with stop := max kept.stop y.stop }
        (List.pairwise_cons.2 ⟨fun z hz => first z (List.mem_cons_of_mem _ hz), (List.pairwise_cons.1 rest).2⟩)
        fun x hx => by
          rcases List.mem_cons.1 hx with rfl | old
          · dsimp only
            omega
          · exact range x (List.mem_cons_of_mem _ (List.mem_cons_of_mem _ old))
      exact ⟨Nat.le_succ_of_le length, each, apart⟩
    next gap =>
      obtain ⟨length, each, apart⟩ := ih y rest fun x hx => range x (List.mem_cons_of_mem _ hx)
      refine ⟨Nat.succ_le_succ length, fun x hx => ?_, List.pairwise_cons.2 ⟨fun x hx => ?_, apart⟩⟩
      · rcases List.mem_cons.1 hx with rfl | new
        · exact ⟨Nat.le_refl _, keptRange⟩
        · obtain ⟨low, own⟩ := each x new
          exact ⟨(first y (List.mem_cons_self ..)).trans low, own⟩
      · have low := (each x hx).1
        omega

theorem storedSpans_stored {xs : List Span} (few : xs.length ≤ 8)
    (range : ∀ x ∈ xs, x.start < x.stop ∧ x.stop ≤ 4000000) :
    spansStored (storedSpans xs) := by
  obtain ⟨length, members, sorted⟩ := sortSpans_spec xs
  have range' : ∀ x ∈ sortSpans xs, x.start < x.stop ∧ x.stop ≤ 4000000 := fun x hx => range x ((members x).1 hx)
  unfold storedSpans mergeSpans
  split
  next => exact ⟨by decide, nofun, .nil⟩
  next y ys sort =>
    rw [sort] at length sorted range'
    obtain ⟨length', each, apart⟩ := mergeSpansFrom_spec ys y sorted range'
    refine ⟨?_, fun x hx => (each x hx).2, apart⟩
    rw [List.length_cons] at length
    omega

/-- ShiftMax and the spans of a SET_QUIET that passes its checks (R68). -/
theorem RequestRecord.setQuietArgs_spec {r : RequestRecord} {shift : Nat} {spans : List Span}
    (h : r.setQuietArgs = .ok (shift, spans)) :
    shift ≤ 63 ∧ spans.length ≤ 8 ∧ ∀ x ∈ spans, x.start < x.stop ∧ x.stop ≤ 4000000 := by
  unfold RequestRecord.setQuietArgs at h
  split at h
  next small =>
    cases items : checkItems r.span (r.u8 0x20) 1 with
    | error e =>
      rw [items] at h
      exact nomatch h
    | ok xs =>
      rw [items] at h
      obtain ⟨rfl, rfl⟩ := Prod.mk.inj (Except.ok.inj h)
      obtain ⟨length, each⟩ := checkItems_spec items
      refine ⟨small.2, length ▸ small.1, fun x hx => ?_⟩
      obtain ⟨j, item⟩ := each x hx
      unfold RequestRecord.span at item
      dsimp only at item
      split at item
      next range =>
        obtain rfl := Option.some.inj item
        exact range
      next => exact nomatch item
  next => exact nomatch h

end Sys2Proof.Machine
end

section
/-! PROOF. Every step keeps the sensing coherent and the fields of the state tables in their ranges (R20, R38, R46, R58,
R81, R100, R101, R123, R132, R133, R149, R154). -/

namespace Sys2Proof.Machine

/-- The bounds of the quiet spans and ShiftMax (R58), and of the reference (R100). -/
structure State.Configured (s : State) : Prop where
  spans : spansStored s.quietSpans
  shift : s.shiftMax ≤ 63
  fref  : 200000 ≤ s.ref.fref ∧ s.ref.fref ≤ 4000000
  early : s.ref.earlyCount ≤ 65535

/-- All but the quiet spans and the reference. -/
def beyondSettings : Set Part := {x | x ≠ .quiet ∧ x ≠ .reference}

namespace State.Configured
variable {s t : State}

theorem of_same (h : s.Configured) (spans : t.quietSpans = s.quietSpans) (shift : t.shiftMax = s.shiftMax)
    (fref : t.ref.fref = s.ref.fref) (early : t.ref.earlyCount = s.ref.earlyCount) : t.Configured :=
  ⟨spans ▸ h.spans, shift ▸ h.shift, fref ▸ h.fref, early ▸ h.early⟩

theorem of_bare (h : s.Configured) (same : t.bare = s.bare) : t.Configured :=
  h.of_same (show t.bare.quietSpans = s.bare.quietSpans from congrArg State.quietSpans same)
    (show t.bare.shiftMax = s.bare.shiftMax from congrArg State.shiftMax same) (congrArg (·.ref.fref) same)
    (congrArg (·.ref.earlyCount) same)

theorem beyond (h : s.Configured) (within : Within beyondSettings s t) : t.Configured := by
  obtain ⟨spans, shift⟩ := within.quiet fun out => out.1 rfl
  have ref := within.reference fun out => out.2 rfl
  exact h.of_same spans shift (congrArg RefUnit.fref ref) (congrArg RefUnit.earlyCount ref)

theorem reaches_beyond (s : State) (p : Pipe) : Within.Reaches beyondSettings s p :=
  ⟨⟨⟨nofun, nofun⟩, fun _ => ⟨nofun, nofun⟩⟩, fun _ => ⟨nofun, nofun⟩⟩

theorem decidePipeRestart (h : s.Configured) (r : RequestRecord) : (s.decidePipeRestart r).Configured := by
  unfold State.decidePipeRestart
  split
  next => exact h.beyond ((Within.refl _ s).finishTake r _ _)
  next p _ =>
    have done := h.beyond (((Within.refl _ s).finishTake r .done []).restartPipe (reaches_beyond s p))
    exact done.of_bare (by rw [State.pipeRewritten_bare, publish_bare])

theorem decideSetQuiet (h : s.Configured) (r : RequestRecord) : (s.decideSetQuiet r).Configured := by
  unfold State.decideSetQuiet
  split
  · exact h.of_same rfl rfl rfl rfl
  · exact h.of_same rfl rfl rfl rfl
  · split
    next => exact h.of_same rfl rfl rfl rfl
    next args =>
      obtain ⟨shift, few, range⟩ := RequestRecord.setQuietArgs_spec args
      exact ⟨storedSpans_stored few range, shift, h.fref, h.early⟩

theorem decideSetReference (h : s.Configured) (r : RequestRecord) : (s.decideSetReference r).Configured := by
  unfold State.decideSetReference
  split
  next => exact h.of_same rfl rfl rfl rfl
  next src fref args =>
    split
    · exact h.of_same rfl rfl rfl rfl
    · have range : 200000 ≤ fref ∧ fref ≤ 4000000 := by
        unfold RequestRecord.setReferenceArgs at args
        split at args
        next => exact nomatch args
        next =>
          split at args
          next range =>
            obtain ⟨-, rfl⟩ := Prod.mk.inj (Except.ok.inj args)
            exact range
          next => exact nomatch args
      exact ⟨h.spans, h.shift, range, h.early⟩

/-- A pulse moves neither Fref nor the early-pulse count (R104). -/
theorem refPulse (h : s.Configured) : s.refPulse.1.Configured := by
  have noted : State.Configured ((s.modRef fun r => { r with lastPulse := some s.time }).pulsePins .reference) :=
    h.of_same rfl rfl rfl rfl
  refine noted.beyond ?_
  unfold State.refPulse
  generalize (s.modRef fun r => { r with lastPulse := some s.time }).pulsePins .reference = t
  have starts := fun p => (reaches_beyond t p).toStarts
  have taken := ((Within.refl beyondSettings t).takeRefPulse (starts .p0).self).takeRefPulse (starts .p1).self
  dsimp only
  split
  · exact taken
  · exact taken.startFrame (starts .p0) _
  · exact taken.startFrame (starts .p1) _
  · exact Within.startBoth _ taken.draw fun p _ => starts p

theorem finish {x : Handing} (h : x.1.Configured) : x.finish.Configured :=
  h.beyond (Within.refl beyondSettings x.1).finish

theorem takeEdge (h : s.Configured) : s.takeEdge.Configured := by
  unfold State.takeEdge
  split
  · exact ⟨h.spans, h.shift, h.fref, Nat.min_le_left ..⟩
  · have present : (s.modRef fun r => { r with present := true }).Configured := h.of_same rfl rfl rfl rfl
    exact present.refPulse.finish

theorem generatePulse (h : s.Configured) : s.generatePulse.Configured := by
  have advanced : (s.modRef fun r => { r with genPhase := some (s.after r.fref) }).Configured := h.of_same rfl rfl rfl rfl
  exact advanced.refPulse.finish

/-- Both links enter PROBING, and the generator starts with a pulse (R5, R104). -/
theorem becomeReady (h : s.Configured) : s.becomeReady.Configured := by
  have up : State.Configured { s with ready := true } := h.of_same rfl rfl rfl rfl
  have own : ∀ p, Part.pipe p ∈ beyondSettings := fun _ => ⟨nofun, nofun⟩
  have probing := up.beyond (((Within.refl beyondSettings _).enterProbing (own .p0)).enterProbing (own .p1))
  have started : State.Configured (State.modRef (({ s with ready := true }.enterProbing .p0).enterProbing .p1) fun r =>
      { r with genPhase := some (s.after r.fref) }) := probing.of_same rfl rfl rfl rfl
  exact started.refPulse.finish

end State.Configured

theorem Acts.configured {s v : State} (h : Acts s v) (hs : s.Configured) : v.Configured := by
  have start := Within.refl beyondSettings s
  have own : ∀ p, Part.pipe p ∈ beyondSettings := fun _ => ⟨nofun, nofun⟩
  have sensing : Part.sensing ∈ beyondSettings := ⟨nofun, nofun⟩
  have reaches := State.Configured.reaches_beyond s
  have starts := fun p => (reaches p).toStarts
  cases h with
  | outside v within => exact hs.beyond (within.mono (Set.empty_subset _))
  | claim b => exact hs.beyond (within_claim sensing s b)
  | setOffers r _ => exact hs.beyond (.decideSetOffers own r)
  | negotiate r _ => exact hs.beyond (.decideNegotiate own r)
  | admission r _ => exact hs.beyond (.decideAdmit own r)
  | restart r _ => exact hs.decidePipeRestart r
  | setQuiet r _ => exact hs.decideSetQuiet r
  | urgentBand r _ => exact hs.beyond (.decideUrgentBand starts r)
  | frameNow r _ => exact hs.beyond (.decideFrameNow starts r)
  | setReference r _ => exact hs.decideSetReference r
  | setSurface r _ => exact hs.beyond (.decideSetSurface sensing r)
  | surfaceEnable r _ => exact hs.beyond (.decideSurfaceEnable sensing r)
  | setBank r _ => exact hs.beyond (.decideSetBank sensing r)
  | clearFaults r _ => exact hs.beyond (.decideClearFaults own sensing r)
  | receive p m => exact hs.beyond (start.receive (reaches p) m)
  | sent p => exact hs.beyond (start.endSending (starts p))
  | probe p _ => exact hs.beyond (start.probeExpired (reaches p))
  | refusal p _ => exact hs.beyond (start.enterRecovery (reaches p) _).finish
  | miss p _ => exact hs.beyond (start.missFrame (reaches p)).finish
  | quietEnd p _ => exact hs.beyond (start.enterProbing (own p))
  | aligned p _ => exact hs.beyond (start.startFrame (starts p) _).finish
  | deadline p _ => exact hs.beyond (start.startFrame (starts p) _).finish
  | burst p _ => exact hs.beyond ((start.modFr (own p) _).releaseSlot (own p) _)
  | window _ => exact hs.beyond (start.startWindow (own .p1) sensing)
  | blank p _ => exact hs.beyond (start.startBlank (starts p))
  | trim p _ => exact hs.beyond (start.modPipe (own p) _)
  | trimEnd p _ => exact hs.beyond (start.endTrim (starts p))
  | stretchEnd p _ => exact hs.beyond (start.endFrame (starts p)).finish
  | silence p _ => exact hs.beyond (start.loseSource (own p) id)
  | edge _ => exact hs.takeEdge
  | pulse _ => exact hs.generatePulse
  | absence => exact hs.of_same rfl rfl rfl rfl
  | tick _ => exact hs.beyond (start.tickPad sensing)
  | retuned _ => exact hs.beyond (start.endRetune sensing)
  | scanned r nodes _ _ => exact hs.beyond (start.completeScan sensing r nodes)
  | expiry k _ => exact hs.beyond ((start.modBank sensing _).loseRequest sensing k)
  | written => exact hs.beyond (.endWrite sensing)

/-- What a step keeps besides the pipes. -/
structure State.Bounds (s : State) : Prop where
  sensed     : s.Sensed
  configured : s.Configured

namespace State.Bounds
variable {s t : State}

theorem of_bare (h : s.Bounds) (same : t.bare = s.bare) : t.Bounds :=
  ⟨h.sensed.of_bare same, h.configured.of_bare same⟩

theorem of_safe (h : s.safe) : s.Bounds := by
  obtain ⟨-, -, -, bank, sensing, -, ⟨-, surfaces, spans, shift, ⟨low, high, early⟩, rows⟩, -⟩ := h
  exact ⟨State.Sensed.iff.2 ⟨bank, sensing, surfaces, rows⟩, spans, shift, ⟨low, high⟩, early⟩

/-- Both resets (R4). -/
theorem of_reset (h : t = s.powerOn ∨ t = s.softReset) : t.Bounds := by
  have sensed : State.reset.Sensed := State.Sensed.iff.2 ⟨State.reset_bankSafe, State.reset_sensingSafe,
    State.reset_bounded.2.1, by decide⟩
  have settings : State.reset.Configured := by
    obtain ⟨-, -, spans, shift, ⟨low, high, early⟩, -⟩ := State.reset_bounded
    exact ⟨spans, shift, ⟨low, high⟩, early⟩
  rcases h with rfl | rfl
  · exact ⟨sensed.of_same (fun k => by cases k <;> rfl) rfl rfl, settings.of_same rfl rfl rfl rfl⟩
  · exact ⟨sensed.of_same (fun k => by cases k <;> rfl) rfl rfl, settings.of_same rfl rfl rfl rfl⟩

end State.Bounds

theorem State.Bounds.becomeReady {s : State} (h : s.Bounds) : s.becomeReady.Bounds := by
  have up : State.Sensed { s with ready := true } := h.sensed.of_same (fun _ => rfl) rfl rfl
  exact ⟨up.beyond (Within.becomeReady (F := beyondSensing) nofun fun p => State.Sensed.starts_beyond _ p),
    h.configured.becomeReady⟩

/-- Initialisation works on the cells and on Work Memory alone (R5, R15). -/
theorem initialised_bounds {s : State} (h : s.Bounds) : s.initialised.Bounds := by
  have frame := (initialises_initialised s).frame
  generalize s.initialised = i at frame ⊢
  refine ⟨h.sensed.of_same (fun k => ?_) ?_ ?_, h.configured.of_same ?_ ?_ ?_ ?_⟩
  all_goals rw [frame]
  rfl

theorem exec_bounds {c : Instr} {s t : State} (hs : s.Bounds) (h : exec c s = .next t) : t.Bounds := by
  cases alive : c.resets with
  | true => exact .of_reset (exec_resets alive h)
  | false =>
    by_cases late : c = .initialisationCompletion
    · subst late
      obtain rfl := next_inj h
      split
      next => exact hs
      next => exact (initialised_bounds hs).becomeReady.of_bare (publish_bare ..)
    · obtain ⟨v, acts, same⟩ := exec_acts alive late h
      exact State.Bounds.of_bare ⟨acts.sensed hs.sensed, acts.configured hs.configured⟩ same

theorem step_bounds {s t : State} (safe : s.safe) (h : step s = .next t) : t.Bounds := by
  have bounds := State.Bounds.of_safe safe
  rcases step_exec h with ⟨c, pending, n, he⟩ | ⟨n, rfl⟩
  · exact exec_bounds (s := { s with pending := pending, free := n })
      ⟨bounds.sensed.of_same (fun _ => rfl) rfl rfl, bounds.configured.of_same rfl rfl rfl rfl⟩ he
  · obtain ⟨-, -, -, surfaces, bank, pct, ref, spans, shift⟩ := State.passTime_same { s with free := n }
    exact ⟨bounds.sensed.of_same (fun k => congrArg (·.get k) surfaces) bank pct,
      bounds.configured.of_same spans shift (congrArg RefUnit.fref ref) (congrArg RefUnit.earlyCount ref)⟩

/-- Settles O55: a command runs an operation, and each operation keeps the bank coherent, its requests those of enabled
surfaces, and every field in its range. -/
theorem stepsKeepBankAndBounds : Obligations.StepsKeepBankAndBounds := by
  unfold Obligations.StepsKeepBankAndBounds
  intro s t safe h
  obtain ⟨sensed, spans, shift, ⟨low, high⟩, early⟩ := step_bounds safe h
  obtain ⟨bank, sensing, surfaces, rows⟩ := State.Sensed.iff.1 sensed
  have sound := step_pipesSound safe h
  exact ⟨bank, sensing, fun p => ((t.pipe p).sound_iff.1 (sound.pipes p)).2, surfaces, spans, shift,
    ⟨low, high, early⟩, rows⟩

end Sys2Proof.Machine
end

section
/-! PROOF. What a selection takes: the first pair that fits, else the fallback on mode 1 (R41 to R46). -/

namespace Sys2Proof.Machine

/-! A pair as its statement puts it (R41 to R43, R46). -/

theorem fitWindows_eq (p : Pipe) (o : Offer) (m : ModeRecord) : fitWindows p o m = pairWindows p o m := by
  cases p <;> rfl

theorem fitWindowLength_eq (p : Pipe) (o : Offer) (m : ModeRecord) : fitWindowLength p o m = pairLength p o m := by
  unfold fitWindowLength pairLength
  rw [fitWindows_eq]
  by_cases none : pairWindows p o m = 0
  · rw [if_pos none, if_neg (by omega)]
  · rw [if_neg none, if_pos (by omega)]

theorem fitBudget_eq (p : Pipe) (o : Offer) (m : ModeRecord) :
    fitBudget p o m = o.f - pairWindows p o m * pairLength p o m := by
  unfold fitBudget
  rw [fitWindows_eq, fitWindowLength_eq]

theorem nextContractNumber_eq (b : PlanBuilder) : nextContractNumber b.counter = b.nextNumber := by
  unfold nextContractNumber PlanBuilder.nextNumber
  by_cases last : b.counter = 0xFFFFFFFF#32
  · rw [if_pos last, if_pos (by rw [last]; rfl)]
  · rw [if_neg last, if_neg (by bv_omega)]

theorem Contract.followable_iff (c : Contract) (f : Nat) :
    c.followable f = true ↔ (c.cadence = .free ∨ c.cadence = .lockedRef) ∧ c.f = f := decide_eq_true_iff

theorem State.lockCondition_iff (s : State) (p : Pipe) (o : Offer) : s.lockCondition p o = true ↔ s.lockHolds p o := by
  unfold State.lockCondition State.lockHolds
  generalize s.pipe (otherPipe p) = q
  dsimp only
  cases o.cadence with
  | free => simp
  | relaxed => simp
  | lockedRef => simp
  | lockedPeer =>
    cases q.pb.contract <;> cases q.pb.selected <;> simp [Contract.followable_iff, and_assoc]

/-- The fit test is conditions 1 to 5 of R42. -/
theorem State.fits_iff (s : State) (p : Pipe) (o : Offer) (m : ModeRecord) : s.fits p o m = true ↔ s.pairFits p o m := by
  unfold State.fits State.pairFits
  dsimp only
  simp only [Bool.and_eq_true, decide_eq_true_eq, State.lockCondition_iff, fitBudget_eq, fitWindows_eq, modeLines,
    Nat.sub_pos_iff_lt]
  tauto

/-! The first mode and the first pair that fit (R44). -/

theorem State.firstMode_eq_none {s : State} {p : Pipe} {o : Offer} {modes : List ModeRecord}
    (h : ∀ m ∈ modes, ¬ s.pairFits p o m) (k : Nat) : s.firstMode p o k modes = none := by
  induction modes generalizing k with
  | nil => rfl
  | cons x xs ih =>
    unfold State.firstMode
    rw [if_neg ((s.fits_iff p o x).not.2 (h x (List.mem_cons_self ..)))]
    exact ih (fun m hm => h m (List.mem_cons_of_mem _ hm)) (k + 1)

theorem State.firstMode_eq_some {s : State} {p : Pipe} {o : Offer} {modes : List ModeRecord} {j : Nat} {m : ModeRecord}
    (at_j : modes[j]? = some m) (fits : s.pairFits p o m)
    (before : ∀ i < j, ∀ m', modes[i]? = some m' → ¬ s.pairFits p o m') (k : Nat) :
    s.firstMode p o k modes = some (k + j, m) := by
  induction modes generalizing j k with
  | nil => exact nomatch at_j
  | cons x xs ih =>
    unfold State.firstMode
    cases j with
    | zero =>
      obtain rfl : x = m := Option.some.inj at_j
      exact if_pos ((s.fits_iff p o x).2 fits)
    | succ j =>
      rw [if_neg ((s.fits_iff p o x).not.2 (before 0 (by omega) x rfl)),
        ih at_j (fun i hi => before (i + 1) (by omega)) (k + 1), Nat.add_right_comm, Nat.add_assoc]

theorem State.firstPair_eq_none {s : State} {p : Pipe} {modes : List ModeRecord} {offers : List Offer}
    (h : ∀ o ∈ offers, ∀ m ∈ modes, ¬ s.pairFits p o m) (k : Nat) : s.firstPair p modes k offers = none := by
  induction offers generalizing k with
  | nil => rfl
  | cons x xs ih =>
    unfold State.firstPair
    rw [State.firstMode_eq_none (h x (List.mem_cons_self ..))]
    exact ih (fun o ho => h o (List.mem_cons_of_mem _ ho)) (k + 1)

theorem State.firstPair_eq_some {s : State} {p : Pipe} {modes : List ModeRecord} {offers : List Offer} {i mi : Nat}
    {o : Offer} {m : ModeRecord} (at_i : offers[i]? = some o) (mode : s.firstMode p o 1 modes = some (mi, m))
    (before : ∀ i' < i, ∀ o', offers[i']? = some o' → ∀ m' ∈ modes, ¬ s.pairFits p o' m') (k : Nat) :
    s.firstPair p modes k offers = some (k + i, o, mi, m) := by
  induction offers generalizing i k with
  | nil => exact nomatch at_i
  | cons x xs ih =>
    unfold State.firstPair
    cases i with
    | zero =>
      obtain rfl : x = o := Option.some.inj at_i
      rw [mode]
      rfl
    | succ i =>
      rw [State.firstMode_eq_none (before 0 (by omega) x rfl)]
      dsimp only
      rw [ih at_i (fun i' hi => before (i' + 1) (by omega)) (k + 1), Nat.add_right_comm, Nat.add_assoc]

/-- Settles O47: the walk over offers and modes stops at the first pair that passes R42. -/
theorem selectionTakesTheFirstFit : Obligations.SelectionTakesTheFirstFit := by
  unfold Obligations.SelectionTakesTheFirstFit
  intro s p i j o m x offer mode fits offersBefore modesBefore w lw n locks
  have first := State.firstPair_eq_some offer (State.firstMode_eq_some mode fits modesBefore 1) offersBefore 1
  unfold State.selection
  dsimp only
  rw [first, nextContractNumber_eq]
  unfold offerContract
  simp only [fitBudget_eq, fitWindows_eq, fitWindowLength_eq, modeLines, Nat.add_comm 1]
  rfl

/-- The fallback's period on a mode: at least Hmin, and past it no more than 200,000 TU over 244 lines give (R45). -/
theorem fallbackPeriod_bounds {n hmin : Nat} (lines : 244 ≤ n) (low : 100 ≤ hmin) (high : hmin ≤ 4000) :
    let f := max 200000 (n * hmin)
    n * hmin ≤ f ∧ hmin ≤ f / n ∧ f / n ≤ max 819 hmin ∧ f / n < 65535 := by
  intro f
  have pos : 0 < n := by omega
  have short : 200000 / n ≤ 819 := (Nat.div_le_div_left lines (by omega)).trans (by decide)
  have period : f / n = max (200000 / n) hmin := by
    have mono : Monotone fun k : Nat => k / n := fun a b h => Nat.div_le_div_right h
    rw [show f / n = _ from mono.map_max, Nat.mul_div_cancel_left _ pos]
  rw [period]
  exact ⟨le_max_right .., by omega, by omega, by omega⟩

/-- Settles O48: where no pair passes R42 the walk ends without one, and the fallback is made on mode 1. -/
theorem nothingFitsGivesTheFallback : Obligations.NothingFitsGivesTheFallback := by
  unfold Obligations.NothingFitsGivesTheFallback
  intro s p m rest x modes nothing v vb low high n f c
  have fallback : c = fallbackContract x.pb.nextNumber x.pb.offers.isEmpty m := by
    unfold c State.selection
    dsimp only
    rw [State.firstPair_eq_none nothing, nextContractNumber_eq, show (s.pipe p).lc.modes = m :: rest from modes]
    rfl
  have period : c.f = f ∧ c.h = f / n := by rw [fallback]; exact ⟨rfl, rfl⟩
  have remainder : f % n = f - f / n * n := Nat.mod_eq_sub_div_mul
  have reason : (if x.pb.offers.isEmpty then Reason.noOffers else .noFit) =
      if x.pb.offers = [] then .noOffers else .noFit := by simp only [List.isEmpty_iff]
  refine ⟨?_, ?_⟩
  · rw [fallback, ← remainder, ← reason]
    rfl
  · rw [period.1, period.2]
    exact fallbackPeriod_bounds (by omega) low high

end Sys2Proof.Machine
end

section
/-! PROOF. SET_REFERENCE: the source of a free reference starts afresh (R47, R102, R103). -/

namespace Sys2Proof.Machine

theorem RequestRecord.setReferenceArgs_ok {r : RequestRecord} {src : RefSource} (items : allPass r.referenceItems)
    (source : refSourceOfCode (r.u8 0x20) = some src) : r.setReferenceArgs = .ok (src, r.u32 0x24) := by
  have period := within_eq_true.1 (items (within (r.u32 0x24) 200000 4000000) (by simp [RequestRecord.referenceItems]))
  unfold RequestRecord.setReferenceArgs
  rw [source]
  exact if_pos period

/-- A code that passes the checks of a SET_REFERENCE names a source. -/
theorem RequestRecord.referenceSource {r : RequestRecord} (items : allPass r.referenceItems) :
    ∃ src, refSourceOfCode (r.u8 0x20) = some src := by
  have source := within_eq_true.1 (items (within (r.u8 0x20) 1 2) (by simp [RequestRecord.referenceItems]))
  refine Option.ne_none_iff_exists'.1 fun h => ?_
  have := refSourceOfCode_none.1 h
  omega

theorem PlanBuilder.holdsLockedRef_iff (b : PlanBuilder) : b.holdsLockedRef = true ↔
    b.contract.map (·.cadence) = some .lockedRef ∨ b.selected.map (·.cadence) = some .lockedRef := decide_eq_true_iff

/-- Settles O19: refused while a LOCKED_REF contract is held, else the source starts afresh, by its code. -/
theorem setReferenceStartsTheSource : Obligations.SetReferenceStartsTheSource := by
  unfold Obligations.SetReferenceStartsTheSource
  intro s r h items holds u fref
  have held : ∀ p, (s.pipe p).pb.holdsLockedRef = true ↔ holds p := fun p => (s.pipe p).pb.holdsLockedRef_iff
  have starts : ∀ src, refSourceOfCode (r.u8 0x20) = some src → ¬ holds .p0 → ¬ holds .p1 →
      Becomes .setReference s (u.startReference src fref) := fun src source free0 free1 => by
    refine becomes_of_decision rfl h ?_ ⟨fun _ => rfl, fun _ => rfl, rfl, rfl⟩
    unfold State.decideSetReference
    rw [RequestRecord.setReferenceArgs_ok items source]
    exact if_neg (not_or.2 ⟨(held .p0).not.2 free0, (held .p1).not.2 free1⟩)
  refine ⟨fun holding => ?_, fun free0 free1 => ⟨fun internal => ?_, fun external => ?_⟩⟩
  · obtain ⟨src, source⟩ := RequestRecord.referenceSource items
    refine becomes_answer rfl h ?_
    unfold State.decideSetReference
    rw [RequestRecord.setReferenceArgs_ok items source]
    exact if_pos (holding.imp (held .p0).2 (held .p1).2)
  · exact starts .internal (by rw [internal]; rfl) free0 free1
  · exact starts .external (by rw [external]; rfl) free0 free1

end Sys2Proof.Machine
end

section
/-! PROOF. TRIM_END and STRETCH_LIMIT: the ends of frames, and the recent pulse (R51, R52, R94 to R96, R110). -/

namespace Sys2Proof.Machine

/-- An event that ends the frame of a pipe and does nothing else. -/
theorem endsFrame_at_once {c : Instr} {s : State} {p : Pipe} (he : exec c s = .next (publish s (s.endFrame p).finish))
    (apart : s.peersApart) : EndsFrame c s s p := by
  have changes : ∀ x : Contract, s.endFrame p = (s.endIntoSelecting p x, []) →
      Becomes c s ((s.withPipe p ((s.pipe p).changingMode s.time x)).noted s) := fun x hx => by
    have left : (s.endFrame p).finish = (s.withPipe p ((s.pipe p).changingMode s.time x)).noted s := by
      rw [hx, ← State.endIntoSelecting_eq]
      rfl
    rw [left] at he
    exact becomes_of_publish he rfl (fun _ => rfl) (s.withPipe_versions rfl)
  have begins : s.endFrame p = s.startFrame p .next → BeginsFrame c s s p .next [] := fun hx => by
    obtain ⟨begun, hands⟩ := s.startFrame_eq p .next apart
    obtain ⟨rqi, time, mem⟩ := s.begun_kept p .next
    obtain ⟨q, n, finished, handed⟩ := ((s.begun p .next).noted s).handOverGroups_spec (s.begunHands p .next)
    have left : (s.endFrame p).finish = { (s.begun p .next).noted s with rqi := q, free := n } := by
      rw [hx, Handing.finish, begun, hands, finished]
    rw [left] at he
    refine ⟨q, ?_, becomes_of_publish he rfl (fun _ => rfl) (s.begun_versions p .next)⟩
    simpa only [State.noted, rqi, time, List.nil_append] using handed
  unfold EndsFrame
  unfold State.endFrame at changes begins
  cases selected : (s.pipe p).pb.selected with
  | none =>
    rw [selected] at begins
    exact begins rfl
  | some x =>
    rw [selected] at changes begins
    cases waiting : (s.pipe p).pb.modeChangeWaiting with
    | true => exact changes x (if_pos waiting)
    | false => exact begins (if_neg (by rw [waiting]; nofun))

/-- The last pulse of a locked contract's source, if recent (R110). -/
theorem State.recentPulse_eq_some (s : State) (p : Pipe) (c : Contract) (t : Word) : s.recentPulse p c = some t ↔
    (s.time - t).toNat ≤ 2 * c.f ∧
      (c.cadence = .lockedRef ∧ s.ref.lastPulse = some t ∨
        c.cadence = .lockedPeer ∧ (s.pipe (otherPipe p)).lock.lastFrameStart = some t) := by
  unfold State.recentPulse
  dsimp only
  rw [Option.filter_eq_some_iff, decide_eq_true_eq, and_comm]
  refine and_congr_right fun _ => ?_
  cases c.cadence <;> simp

theorem Runner.currentSlot_of {r : Runner} {pl : Plan} {k : Nat} {x : Slot} (h : r.inSlot pl k x) :
    r.currentSlot = some x := by
  obtain ⟨running, plan, slot, record⟩ := h
  unfold Runner.currentSlot
  rw [running, plan, slot]
  exact record

theorem State.trimDue_of {s : State} {p : Pipe} {pl : Plan} {k a n : Nat} (slot : (s.pipe p).fr.inSlot pl k (.trim a n))
    (now : (s.pipe p).fr.trimEnd = some s.time) : s.trimDue p = true := by
  unfold State.trimDue State.isNow
  rw [Runner.currentSlot_of slot, now]
  simp [Slot.kind]

theorem PipeState.stretchTo_eq {x : PipeState} {c : Contract} (contract : x.pb.contract = some c) : x.stretchTo =
    if c.cadence = .relaxed ∧ c.f < c.fr ∧ x.fr.pullIn = false then some (tuAfter x.fr.frameStart c.fr) else none := by
  unfold PipeState.stretchTo
  rw [contract]

/-- Settles O36: the trim line's end by where `stretchTo` lets the frame go on, and the stretch limit. -/
theorem framesEndByCadence : Obligations.FramesEndByCadence := by
  unfold Obligations.FramesEndByCadence
  refine ⟨State.recentPulse_eq_some, ?_⟩
  intro s p c apart x contract stretches trimEnds
  have stretchTo := PipeState.stretchTo_eq (x := x) contract
  have trim : trimEnds → exec (.trimEnd p) s = .next (publish s (s.endTrim p)) := fun ⟨⟨_, _, _, _, slot⟩, now⟩ =>
    event_of (State.trimDue_of slot now) fun t => t.endTrim p
  refine ⟨fun ends long => ?_, fun ends short => ?_, fun stretch now => ?_⟩
  · have executed := trim ends
    unfold State.endTrim at executed
    rw [show (s.pipe p).stretchTo = _ from stretchTo.trans (if_pos long)] at executed
    exact becomes_of_publish executed rfl (fun _ => rfl) (s.withPipe_versions rfl)
  · have executed := trim ends
    unfold State.endTrim at executed
    rw [show (s.pipe p).stretchTo = _ from stretchTo.trans (if_neg short)] at executed
    exact endsFrame_at_once executed apart
  · have due : s.stretchDue p = true := by
      unfold State.stretchDue State.isNow
      rw [Bool.and_eq_true, decide_eq_true_eq, decide_eq_true_eq]
      exact ⟨stretch, now⟩
    exact endsFrame_at_once (event_of due fun t => (t.endFrame p).finish) apart

end Sys2Proof.Machine
end

section
/-! PROOF. The plan point (R50 to R52, R59, R89, R92, R127, R128). -/

namespace Sys2Proof.Machine

/-! A selection reads of its own pipe the modes and the Plan Builder alone (R41 to R44): it stands though the same event
has moved the runner and the fault set. -/

section

variable {s t : State} {p : Pipe}

theorem State.firstMode_of_fits {o : Offer} (same : ∀ m, t.fits p o m = s.fits p o m) (k : Nat)
    (modes : List ModeRecord) : t.firstMode p o k modes = s.firstMode p o k modes := by
  induction modes generalizing k with
  | nil => rfl
  | cons m ms ih =>
    unfold State.firstMode
    rw [same, ih]

theorem State.firstPair_of_fits (same : ∀ o m, t.fits p o m = s.fits p o m) (modes : List ModeRecord) (k : Nat)
    (offers : List Offer) : t.firstPair p modes k offers = s.firstPair p modes k offers := by
  induction offers generalizing k with
  | nil => rfl
  | cons o os ih =>
    unfold State.firstPair
    rw [State.firstMode_of_fits (same o), ih]

theorem State.selection_of_own (link : (t.pipe p).lc = (s.pipe p).lc) (builder : (t.pipe p).pb = (s.pipe p).pb)
    (other : t.pipe (otherPipe p) = s.pipe (otherPipe p)) (ref : t.ref = s.ref) : t.selection p = s.selection p := by
  have same : ∀ o m, t.fits p o m = s.fits p o m := fun o m => by
    unfold State.fits State.lockCondition
    rw [other, ref]
  unfold State.selection
  dsimp only
  rw [State.firstPair_of_fits same, link, builder]

end

/-! Bursts and bands (R127, R128). -/

theorem Band.satisfiedBy_eq (b : Band) (frame : Word) (v first count : Nat) :
    b.satisfiedBy frame v first count = b.carriedBy frame v first count := by
  unfold Band.satisfiedBy Band.carriedBy
  cases b.wholeFrame <;> simp

theorem Band.completion_eq (b : Band) (now : Word) : b.completion now = b.answeredAt now := by
  have status : (if b.late now then Status.doneLate else .done) =
      if (now - b.intake).toNat ≤ b.deadline then .done else .doneLate := by
    unfold Band.late Band.latency
    by_cases late : b.deadline < (now - b.intake).toNat
    · rw [if_pos (decide_eq_true late), if_neg (by omega)]
    · rw [if_neg (by simpa using late), if_pos (by omega)]
  unfold Band.completion Band.answeredAt Parked.complete
  rw [status]
  rfl

theorem State.burstCompleted_hands (s : State) (p : Pipe) (first count : Nat) :
    (s.burstCompleted p first count).2 = [(s.pipe p).burstHands s.time first count] := by
  unfold State.burstCompleted PipeState.burstHands
  simp only [Band.satisfiedBy_eq, Band.completion_eq]

/-- A pipe's blocks without the bands that a burst completion satisfies. -/
def PipeState.bandsLeft (x : PipeState) (first count : Nat) : PipeState :=
  let v := (x.fr.plan.map (·.v)).getD 0
  { x with fr := { x.fr with bands := x.fr.bands.filter fun b => !b.carriedBy x.fr.frameNumber v first count } }

/-- Whether one of the bands that a burst completion satisfies is late. -/
def PipeState.lateOn (x : PipeState) (now : Word) (first count : Nat) : Bool :=
  x.fr.bands.any fun b => b.carriedBy x.fr.frameNumber ((x.fr.plan.map (·.v)).getD 0) first count &&
    decide (b.deadline < (now - b.intake).toNat)

theorem State.burstCompleted_eq (s : State) (p : Pipe) (first count : Nat) : (s.burstCompleted p first count).1 =
    if (s.pipe p).lateOn s.time first count
      then (s.withPipe p ((s.pipe p).bandsLeft first count)).raisePipeFault p .lateBand
      else s.withPipe p ((s.pipe p).bandsLeft first count) := by
  have late : (fun b : Band => b.late s.time) = fun b => decide (b.deadline < (s.time - b.intake).toNat) := rfl
  unfold State.burstCompleted PipeState.lateOn
  simp only [Band.satisfiedBy_eq, List.any_filter, late]
  rfl

theorem PipeState.burstEnded_eq (x : PipeState) (now : Word) (first count : Nat) : x.burstEnded now first count =
    if x.lateOn now first count then
      { x.bandsLeft first count with faults := (x.bandsLeft first count).faults.put .lateBand }
    else x.bandsLeft first count := by
  unfold PipeState.burstEnded PipeState.lateOn
  dsimp only
  split <;> rfl

theorem PipeState.Steady.withPipe {s : State} {p : Pipe} {x : PipeState} (steady : (s.pipe p).Steady x) (q : Pipe) :
    (s.pipe q).Steady ((s.withPipe p x).pipe q) := by
  by_cases hq : q = p
  · subst hq
    rwa [State.withPipe_pipe]
  · rw [s.withPipe_other x hq]
    exact .refl _

theorem State.withPipe_notes (s : State) {p : Pipe} {x : PipeState} (steady : (s.pipe p).Steady x) :
    Notes s (s.withPipe p x) := .quiet rfl steady.withPipe fun _ => rfl

theorem State.burstCompleted_notes (s : State) (p : Pipe) (first count : Nat) :
    Notes s (s.burstCompleted p first count).1 := by
  have quiet : Notes s (s.withPipe p ((s.pipe p).bandsLeft first count)) := s.withPipe_notes ⟨rfl, rfl, rfl⟩
  rw [State.burstCompleted_eq]
  split
  · exact quiet.trans (State.raisePipeFault_notes _ p .lateBand) fun q =>
      .inl (PipeState.Steady.withPipe (x := (s.pipe p).bandsLeft first count) ⟨rfl, rfl, rfl⟩ q)
  · exact quiet

theorem State.burstCompleted_fields (s : State) (p : Pipe) (first count : Nat) : ∃ n,
    (s.burstCompleted p first count).1 =
      { s.withPipe p ((s.pipe p).burstEnded s.time first count) with notice := n } := by
  rw [State.burstCompleted_eq, PipeState.burstEnded_eq]
  split
  · rw [State.raisePipeFault_eq, State.withPipe_pipe, State.withPipe_withPipe]
    exact ⟨_, rfl⟩
  · exact ⟨_, rfl⟩

/-! The plan point (R50, R59). -/

/-- The blocks of a pipe whose STAGED NEGOTIATE, if it has one, selects a contract (R50). -/
def PipeState.staging (x : PipeState) (c : Contract) : PipeState :=
  if x.pb.phase = .staged then
    { x with pb := { x.pb with selected := some c, counter := c.number, phase := .selected } }
  else x

/-- The next frame of a pipe with these blocks is planned, unless its mode changes (R59). -/
def State.planning (s : State) (p : Pipe) (x : PipeState) : State :=
  match x.pb.planSource with
  | some d => (s.withPipe p x).planned p (buildPlan (x.fr.frameNumber + 1) d (s.quietOf p).1 (s.quietOf p).2)
  | none => s.withPipe p x

theorem State.planPoint_eq (s : State) (p : Pipe) :
    s.planPoint p = s.planning p ((s.pipe p).staging (s.selection p)) := by
  have staged : s.stagedSelection p = s.withPipe p ((s.pipe p).staging (s.selection p)) := by
    unfold State.stagedSelection PipeState.staging
    split
    · rfl
    · cases p <;> rfl
  unfold State.planPoint State.planning
  rw [staged]
  dsimp only
  rw [State.withPipe_pipe]
  cases ((s.pipe p).staging (s.selection p)).pb.planSource with
  | none => rfl
  | some d =>
    dsimp only
    rw [State.makePlan_eq]
    cases p <;> rfl

/-- Of the pipe's blocks before it and of NOTICE the planning reads nothing. -/
theorem State.planning_notice (s : State) (p : Pipe) (x y : PipeState) (n : Notices) :
    State.planning { s.withPipe p x with notice := n } p y = { s.planning p y with notice := n } := by
  unfold State.planning
  split <;> cases p <;> rfl

/-- The planning moves the pipe's Plan Builder and Work Memory alone. -/
theorem State.planning_spec (s : State) (p : Pipe) (x : PipeState) :
    ∃ b m, s.planning p x = { s.withPipe p { x with pb := b } with mem := m } := by
  unfold State.planning
  split
  · unfold State.planned
    rw [State.withPipe_pipe, State.withPipe_withPipe]
    exact ⟨_, _, rfl⟩
  · exact ⟨x.pb, s.mem, rfl⟩

theorem PipeState.staging_steady (x : PipeState) (c : Contract) : x.Steady (x.staging c) := by
  unfold PipeState.staging
  split <;> exact ⟨rfl, rfl, rfl⟩

/-- NOTICE has nothing to say of a plan point. -/
theorem Notes.planPoint {s t : State} (notes : Notes s t) (p : Pipe) : Notes s ((t.nextSlot p).planPoint p) := by
  have own : (t.nextSlot p).pipe p = (t.pipe p).inNextSlot := t.modFr_pipe p _
  have staged := (t.pipe p).inNextSlot.staging_steady ((t.nextSlot p).selection p)
  have point := (t.nextSlot p).planPoint_eq p
  rw [own] at point
  generalize (t.pipe p).inNextSlot.staging ((t.nextSlot p).selection p) = y at staged point
  obtain ⟨b, m, moved⟩ := (t.nextSlot p).planning_spec p y
  have builds : (t.nextSlot p).planPoint p = { t.withPipe p { y with pb := b } with mem := m } := by
    rw [point, moved, show t.nextSlot p = t.withPipe p (t.pipe p).inNextSlot from rfl, State.withPipe_withPipe]
  have steady : (t.pipe p).Steady { y with pb := b } := ⟨staged.link, staged.lock, staged.faults⟩
  obtain ⟨cell, report, pipe, fault, surfaces⟩ := t.withPipe_notes steady
  rw [builds]
  exact notes.trans ⟨cell, report, pipe, fault, surfaces⟩ fun q => .inr (steady.withPipe q)

/-- The plan point after a burst completion, field by field. -/
theorem State.startBlank_eq {s : State} {p : Pipe} {a n first count : Nat}
    (slot : (s.pipe p).fr.currentSlot = some (.burst a n first count)) :
    let x := ((s.pipe p).burstEnded s.time first count).inNextSlot
    ∃ q n, HandedOver s.rqi s.time [(s.pipe p).burstHands s.time first count] q ∧
      s.startBlank p = { (s.planning p (x.staging (s.selection p))).noted s with rqi := q, free := n } := by
  intro x
  have completed : s.slotCompleted p (s.pipe p).fr.currentSlot = s.burstCompleted p first count := by rw [slot]; rfl
  have notes := s.burstCompleted_notes p first count
  have hands := s.burstCompleted_hands p first count
  obtain ⟨m, fields⟩ := s.burstCompleted_fields p first count
  unfold State.startBlank
  dsimp only
  rw [completed, hands]
  generalize (s.burstCompleted p first count).1 = t at *
  have next : t.nextSlot p = { s.withPipe p x with notice := m } := by
    rw [fields]
    cases p <;> rfl
  have own : (t.nextSlot p).pipe p = x := by
    rw [next]
    exact s.withPipe_pipe p x
  have selects : (t.nextSlot p).selection p = s.selection p := by
    refine State.selection_of_own (by rw [own]; rfl) (by rw [own]; rfl) ?_ (by rw [next]; rfl)
    rw [next]
    exact s.withPipe_other x (otherPipe_ne p)
  have planned : (t.nextSlot p).planPoint p = { s.planning p (x.staging (s.selection p)) with notice := m } := by
    rw [State.planPoint_eq, own, selects, next, State.planning_notice]
  obtain ⟨b, mem, moved⟩ := s.planning_spec p (x.staging (s.selection p))
  have noted : (t.nextSlot p).planPoint p = (s.planning p (x.staging (s.selection p))).noted s :=
    (notes.planPoint p).eq_noted (by rw [planned]) (by rw [moved]; rfl)
  obtain ⟨q, n, finished, handed⟩ := ((t.nextSlot p).planPoint p).handOverGroups_spec
    [(s.pipe p).burstHands s.time first count]
  refine ⟨q, n, ?_, ?_⟩
  · rw [planned, moved] at handed
    exact handed
  · rw [← noted]
    exact finished

theorem State.slotDue_of {s : State} {p : Pipe} {x y : Slot} (h : (s.pipe p).fr.reaches s.time x y) :
    (s.pipe p).fr.currentSlot = some x ∧ s.slotDue p x.kind y.kind = true := by
  obtain ⟨pl, k, slot, next, starts⟩ := h
  have current := Runner.currentSlot_of slot
  obtain ⟨running, plan, position, -⟩ := slot
  have following : (s.pipe p).fr.followingSlot = some y := by
    unfold Runner.followingSlot
    rw [running, plan, position]
    exact next
  refine ⟨current, ?_⟩
  unfold State.slotDue
  dsimp only
  rw [current, following]
  exact decide_eq_true ⟨rfl, rfl, starts⟩

/-! The contract of the next frame's plan (R59). -/

theorem PlanBuilder.planSource_selected {b : PlanBuilder} {c d : Contract} (selected : b.selected = some d)
    (force : b.contract = some c) : b.planSource = if d.modeIndex = c.modeIndex then some d else none := by
  unfold PlanBuilder.planSource PlanBuilder.modeChangeWaiting
  rw [selected, force]
  by_cases same : d.modeIndex = c.modeIndex <;> simp [same]

theorem PlanBuilder.planSource_unselected {b : PlanBuilder} (none : b.selected = none) : b.planSource = b.contract := by
  unfold PlanBuilder.planSource
  rw [none]

theorem State.planning_some {s : State} {p : Pipe} {x : PipeState} {d : Contract} (h : x.pb.planSource = some d) :
    s.planning p x =
      (s.withPipe p x).planned p (buildPlan (x.fr.frameNumber + 1) d (s.quietOf p).1 (s.quietOf p).2) := by
  unfold State.planning
  rw [h]

theorem State.planning_none {s : State} {p : Pipe} {x : PipeState} (h : x.pb.planSource = none) :
    s.planning p x = s.withPipe p x := by
  unfold State.planning
  rw [h]

/-- Settles O35: the burst completes, the staged selection follows, and `planSource` says what is planned. -/
theorem planPointPlansTheNextFrame : Obligations.PlanPointPlansTheNextFrame := by
  unfold Obligations.PlanPointPlansTheNextFrame
  intro s p a n first count b m f k old z reaches force x c staged planFrom
  obtain ⟨slot, due⟩ := State.slotDue_of reaches
  obtain ⟨q, free, handed, left⟩ := State.startBlank_eq slot
  have executed : exec (.planPoint p) s = .next (publish s (s.startBlank p)) := event_of due fun t => t.startBlank p
  have versions := ((Within.refl Set.univ s).startBlank (reaches_univ s p).toStarts).versions
  have becomes : ∀ u, s.planning p (x.staging c) = u → Becomes (.planPoint p) s ({ u with rqi := q }.noted s) :=
    fun u hu => becomes_of_publish executed (by rw [left, ← hu]; rfl) (fun a => by rw [left, ← hu]; rfl) versions
  refine ⟨q, handed, fun phase => ?_, fun phase => ?_⟩
  · have staging : x.staging c = _ := if_pos phase
    have source := PlanBuilder.planSource_selected (b := (x.staging c).pb) (by rw [staging]) (by rw [staging]; exact force)
    rw [staging] at becomes source
    exact ⟨fun same => becomes _ (State.planning_some (source.trans (if_pos same))),
      fun changes => becomes _ (State.planning_none (source.trans (if_neg changes)))⟩
  · have staging : x.staging c = x := if_neg phase
    rw [staging] at becomes
    have source := fun d (h : x.pb.selected = some d) => PlanBuilder.planSource_selected h force
    exact ⟨fun d h same => becomes _ (State.planning_some ((source d h).trans (if_pos same))),
      fun d h changes => becomes _ (State.planning_none ((source d h).trans (if_neg changes))),
      fun h => becomes _ (State.planning_some ((PlanBuilder.planSource_unselected h).trans force))⟩

end Sys2Proof.Machine
end

section
/-! PROOF. SET_QUIET: the stored form of quiet spans (R68, R69). -/

namespace Sys2Proof.Machine

/-- Joining spans adds none. -/
theorem length_mergeSpansFrom_le (ys : List Span) : ∀ kept : Span, (mergeSpansFrom kept ys).length ≤ ys.length + 1 := by
  induction ys with
  | nil => exact fun _ => Nat.le_refl _
  | cons y ys ih =>
    intro kept
    unfold mergeSpansFrom
    split
    next => exact (ih _).trans (Nat.le_succ _)
    next => exact Nat.succ_le_succ (ih y)

/-- Valid spans that rise by their starts, however late they end, joined: each valid, none before the first start, and
none touching the next. -/
theorem mergeSpansFrom_apart (ys : List Span) : ∀ kept : Span, kept.start < kept.stop →
    (kept :: ys).Pairwise (fun y z => y.start ≤ z.start) → (∀ y ∈ ys, y.start < y.stop) →
    (∀ x ∈ mergeSpansFrom kept ys, kept.start ≤ x.start ∧ x.start < x.stop) ∧
      (mergeSpansFrom kept ys).Pairwise fun x y => x.stop < y.start := by
  induction ys with
  | nil =>
    intro kept valid _ _
    refine ⟨fun x hx => ?_, List.pairwise_singleton ..⟩
    obtain rfl := List.mem_singleton.1 hx
    exact ⟨Nat.le_refl _, valid⟩
  | cons y ys ih =>
    intro kept valid sorted valids
    obtain ⟨low, rising⟩ := List.pairwise_cons.1 sorted
    obtain ⟨first, others⟩ := List.forall_mem_cons.1 low
    obtain ⟨yValid, othersValid⟩ := List.forall_mem_cons.1 valids
    unfold mergeSpansFrom
    split
    next touches =>
      exact ih _ (show kept.start < max kept.stop y.stop by omega)
        (List.pairwise_cons.2 ⟨others, (List.pairwise_cons.1 rising).2⟩) othersValid
    next gap =>
      obtain ⟨each, apart⟩ := ih y yValid rising othersValid
      refine ⟨List.forall_mem_cons.2 ⟨⟨Nat.le_refl _, valid⟩, fun x hx => ?_⟩,
        List.pairwise_cons.2 ⟨fun x hx => ?_, apart⟩⟩
      · exact ⟨first.trans (each x hx).1, (each x hx).2⟩
      · exact (Nat.lt_of_not_le gap).trans_le (each x hx).1

/-- Some span of a list covers an instant. -/
def instantCovered (xs : List Span) (n : Nat) : Prop := ∃ x ∈ xs, x.start ≤ n ∧ n < x.stop

theorem instantCovered_cons (x : Span) (xs : List Span) (n : Nat) :
    instantCovered (x :: xs) n ↔ (x.start ≤ n ∧ n < x.stop) ∨ instantCovered xs n := List.exists_mem_cons_iff ..

/-- Spans that rise by their starts, joined, cover what they cover. -/
theorem instantCovered_mergeSpansFrom (n : Nat) (ys : List Span) : ∀ kept : Span,
    (kept :: ys).Pairwise (fun y z => y.start ≤ z.start) →
    (instantCovered (mergeSpansFrom kept ys) n ↔ instantCovered (kept :: ys) n) := by
  induction ys with
  | nil => exact fun _ _ => .rfl
  | cons y ys ih =>
    intro kept sorted
    obtain ⟨low, rising⟩ := List.pairwise_cons.1 sorted
    obtain ⟨first, others⟩ := List.forall_mem_cons.1 low
    unfold mergeSpansFrom
    split
    next touches =>
      have joined : kept.start ≤ n ∧ n < max kept.stop y.stop ↔
          (kept.start ≤ n ∧ n < kept.stop) ∨ (y.start ≤ n ∧ n < y.stop) := by omega
      rw [ih { kept with stop := max kept.stop y.stop }
        (List.pairwise_cons.2 ⟨others, (List.pairwise_cons.1 rising).2⟩)]
      simp only [instantCovered_cons, joined, or_assoc]
    next gap => rw [instantCovered_cons, instantCovered_cons kept, ih y rising]

/-- Sorting moves no instant, and the spans sorted are joined from the first one on (R69). -/
theorem storedSpans_spec {xs : List Span} (valid : ∀ x ∈ xs, x.start < x.stop) :
    (storedSpans xs).Pairwise (fun x y => x.stop < y.start) ∧ (∀ x ∈ storedSpans xs, x.start < x.stop) ∧
      (∀ n, instantCovered (storedSpans xs) n ↔ instantCovered xs n) ∧ (storedSpans xs).length ≤ xs.length := by
  obtain ⟨length, members, sorted⟩ := sortSpans_spec xs
  have covered : ∀ n, instantCovered (sortSpans xs) n ↔ instantCovered xs n := fun n =>
    exists_congr fun x => and_congr_left fun _ => members x
  have sortedValid : ∀ x ∈ sortSpans xs, x.start < x.stop := fun x hx => valid x ((members x).1 hx)
  unfold storedSpans
  cases sort : sortSpans xs with
  | nil =>
    rw [sort] at covered
    exact ⟨.nil, nofun, covered, Nat.zero_le _⟩
  | cons y ys =>
    rw [sort] at length sorted covered sortedValid
    obtain ⟨yValid, othersValid⟩ := List.forall_mem_cons.1 sortedValid
    obtain ⟨each, apart⟩ := mergeSpansFrom_apart ys y yValid sorted othersValid
    exact ⟨apart, fun x hx => (each x hx).2, fun n => (instantCovered_mergeSpansFrom n ys y sorted).trans (covered n),
      length ▸ length_mergeSpansFrom_le ys y⟩

/-- A span that passes its check is the span the record holds. -/
theorem RequestRecord.span_eq {r : RequestRecord} {k : Nat}
    (h : (r.spanRead k).start < (r.spanRead k).stop ∧ (r.spanRead k).stop ≤ 4000000) : r.span k = some (r.spanRead k) :=
  if_pos h

theorem RequestRecord.setQuietArgs_ok {r : RequestRecord} (h : allPass r.quietItems) :
    r.setQuietArgs = .ok (r.u8 0x21, (List.range (r.u8 0x20)).map fun i => r.spanRead (i + 1)) := by
  unfold allPass RequestRecord.quietItems at h
  obtain ⟨counts, items⟩ := List.forall_mem_cons.1 h
  rw [Bool.and_eq_true, within_eq_true, within_eq_true] at counts
  have spans : ∀ j < r.u8 0x20, r.span (1 + j) = some (r.spanRead (1 + j)) := fun j hj => by
    rw [Nat.add_comm]
    exact RequestRecord.span_eq (of_decide_eq_true (items _ (List.mem_map.2 ⟨j, List.mem_range.2 hj, rfl⟩)))
  unfold RequestRecord.setQuietArgs
  rw [if_pos (by omega), checkItems_ok spans]
  simp only [Nat.add_comm 1]
  rfl

/-- Settles O16: the spans stored are those the record holds, sorted and then joined. -/
theorem setQuietStoresMergedSpans : Obligations.SetQuietStoresMergedSpans := by
  unfold Obligations.SetQuietStoresMergedSpans
  refine ⟨fun s r h target items => ?_, fun xs valid => storedSpans_spec valid⟩
  refine becomes_of_decision rfl h ?_ ⟨fun _ => rfl, fun _ => rfl, rfl, rfl⟩
  unfold State.decideSetQuiet
  rw [RequestRecord.pipeTarget_of target, RequestRecord.setQuietArgs_ok items]
  rfl

end Sys2Proof.Machine
end

section
/-! PROOF. BURST_START and TRIM_START: slots start by the plan (R78, R88, R89, R91 to R93). -/

namespace Sys2Proof.Machine

/-- The runner moves on into the slot that starts now. -/
theorem Runner.reaches.currentSlot_next {r : Runner} {now : Word} {x y : Slot} (h : r.reaches now x y) :
    { r with slot := r.slot + 1 }.currentSlot = some y := by
  obtain ⟨pl, k, ⟨running, plan, slot, -⟩, next, -⟩ := h
  exact Runner.currentSlot_of (k := k + 1) ⟨running, plan, congrArg (· + 1) slot, next⟩

/-- A slot starts, and releases its lines if it is a burst (R89, R91). -/
theorem State.startBurst_eq {s : State} {p : Pipe} {x y : Slot} (h : (s.pipe p).fr.reaches s.time x y) :
    s.startBurst p = s.withPipe p { s.pipe p with
      fr := { (s.pipe p).fr with slot := (s.pipe p).fr.slot + 1,
                                 lpo := (s.pipe p).fr.lpo ++ Slot.releases (some y) } } := by
  have next : s.nextSlot p = s.withPipe p (s.pipe p).inNextSlot := rfl
  unfold State.startBurst
  dsimp only
  rw [State.releaseSlot_eq, next, State.withPipe_pipe, State.withPipe_withPipe]
  dsimp only [PipeState.inNextSlot]
  rw [h.currentSlot_next]

/-- The trim line's length with the plan and the contract at hand (R93). -/
theorem PipeState.trimLength_eq {x : PipeState} {pl : Plan} {c : Contract} (plan : x.fr.plan = some pl)
    (contract : x.pb.contract = some c) :
    x.trimNow = x.lock.adjustment c ∧ x.trimLength = ((pl.h : Int) + pl.q + x.lock.adjustment c).toNat := by
  have trim : x.trimNow = x.lock.adjustment c := by
    unfold PipeState.trimNow
    rw [contract]
  refine ⟨trim, ?_⟩
  unfold PipeState.trimLength
  rw [plan, trim]

/-- Settles O33: the runner moves on into the slot that starts, which releases its lines or has its end fixed. -/
theorem slotStartsByThePlan : Obligations.SlotStartsByThePlan := by
  unfold Obligations.SlotStartsByThePlan
  intro s p start len first count x y z reaches
  obtain ⟨-, due⟩ := State.slotDue_of reaches
  refine ⟨fun a n j k noisy window burst => ?_, fun a n f m pl c blank trim plan contract => ?_⟩
  · subst window burst
    have executed : exec (.burstStart p) s = .next (publish s (s.startBurst p)) := event_of due fun t => t.startBurst p
    rw [State.startBurst_eq reaches] at executed
    exact becomes_of_publish executed rfl (fun _ => rfl) (State.withPipe_versions rfl)
  · subst blank trim
    have executed : exec (.trimStart p) s = .next (publish s (s.startTrim p)) := event_of due fun t => t.startTrim p
    obtain ⟨trimNow, trimLength⟩ := PipeState.trimLength_eq (x := z) plan contract
    unfold State.startTrim at executed
    rw [State.modPipe_eq, trimNow, trimLength] at executed
    exact becomes_of_publish executed rfl (fun _ => rfl) (State.withPipe_versions rfl)

end Sys2Proof.Machine
end

section
/-! PROOF. Windows placed past the quiet spans, and the nominal bursts (R64, R71 to R73). -/

namespace Sys2Proof.Machine

section

variable (spans : List Span) (shiftMax lw h a : Nat)

theorem collides_iff (t : Nat) : collides spans lw t = true ↔ ∃ x ∈ spans, t < x.stop ∧ x.start < t + lw := by
  unfold collides
  simp only [List.any_eq_true, decide_eq_true_eq]

/-- The loop of R72 stops `d` lines on: it collides before that, leaves a line in the next burst, and where it still
collides, its fuel is spent or the next burst holds no line to take. -/
theorem shiftLoop_spec (fuel k next : Nat) : ∃ d ≤ fuel, shiftLoop spans lw h a fuel k next = k + d ∧
    (d = 0 ∨ d < next) ∧ (∀ i < d, collides spans lw (a + (k + i) * h) = true) ∧
    (collides spans lw (a + (k + d) * h) = true → d = fuel ∨ next ≤ d + 1) := by
  induction fuel generalizing k next with
  | zero => exact ⟨0, Nat.le_refl _, rfl, .inl rfl, nofun, fun _ => .inl rfl⟩
  | succ fuel ih =>
    unfold shiftLoop
    split
    next moves =>
      obtain ⟨meets, spare⟩ := moves
      obtain ⟨d, bound, stops, leaves, before, stuck⟩ := ih (k + 1) (next - 1)
      have onward : ∀ i, k + 1 + i = k + (i + 1) := fun i => by omega
      simp only [onward] at stops before stuck
      refine ⟨d + 1, by omega, stops, by omega, fun i hi => ?_, fun still => ?_⟩
      · cases i with
        | zero => exact meets
        | succ i => exact before i (by omega)
      · have := stuck still
        omega
    next stays =>
      refine ⟨0, Nat.zero_le _, rfl, .inl rfl, nofun, fun meets => .inr ?_⟩
      exact Nat.le_of_not_lt fun spare => stays ⟨meets, spare⟩

/-- A window is noisy at its nominal start if every shift allowed collides, and else takes the least that does not. -/
theorem placeWindow_spec (next : Nat) :
    let x := placeWindow spans shiftMax lw h a next
    (x.noisy = true → x.shift = 0 ∧
      ∀ k ≤ shiftMax, k = 0 ∨ k < next → collides spans lw (a + k * h) = true) ∧
    (x.noisy = false → x.shift ≤ shiftMax ∧ (x.shift = 0 ∨ x.shift < next) ∧
      ¬ collides spans lw (a + x.shift * h) = true ∧ ∀ k < x.shift, collides spans lw (a + k * h) = true) := by
  obtain ⟨d, bound, stops, leaves, before, stuck⟩ := shiftLoop_spec spans lw h a shiftMax 0 next
  simp only [Nat.zero_add] at stops before stuck
  unfold placeWindow
  rw [stops]
  dsimp only
  split
  next meets =>
    refine ⟨fun _ => ⟨rfl, fun k within leavesLine => ?_⟩, nofun⟩
    have := stuck meets
    rcases Nat.lt_or_eq_of_le (show k ≤ d by omega) with less | rfl
    · exact before k less
    · exact meets
  next clear => exact ⟨nofun, fun _ => ⟨bound, leaves, clear, before⟩⟩

/-- However a window is placed, the next burst keeps a line, if it had one. -/
theorem placeWindow_leaves (next : Nat) :
    (placeWindow spans shiftMax lw h a next).shift = 0 ∨ (placeWindow spans shiftMax lw h a next).shift < next := by
  obtain ⟨noisy, clear⟩ := placeWindow_spec spans shiftMax lw h a next
  cases e : (placeWindow spans shiftMax lw h a next).noisy with
  | true => exact .inl (noisy e).1
  | false => exact (clear e).2.1

end

/-- The nominal line count of a burst (R64). -/
def nominalLines (v w i : Nat) : Nat := v / (w + 1) + if i < v % (w + 1) then 1 else 0

/-- The nominal lines of the bursts before one. -/
def nominalLinesBefore (v w i : Nat) : Nat := ((List.range i).map (nominalLines v w)).sum

theorem nominalLinesBefore_succ (v w i : Nat) :
    nominalLinesBefore v w (i + 1) = nominalLinesBefore v w i + nominalLines v w i := by
  unfold nominalLinesBefore
  rw [List.range_succ, List.map_append, List.sum_append]
  rfl

theorem nominalLinesBefore_eq (v w i : Nat) : nominalLinesBefore v w i = i * (v / (w + 1)) + min i (v % (w + 1)) := by
  induction i with
  | zero => simp [nominalLinesBefore]
  | succ i ih =>
    rw [nominalLinesBefore_succ, ih, nominalLines, Nat.succ_mul]
    split <;> omega

/-- The bursts of a plan hold V lines together (R64, R67). -/
theorem nominalLinesBefore_all (v w : Nat) : nominalLinesBefore v w (w + 1) = v := by
  rw [nominalLinesBefore_eq, Nat.min_eq_right (Nat.mod_lt v (Nat.succ_pos w)).le]
  exact Nat.div_add_mod v (w + 1)

theorem nominalCounts_eq (v w : Nat) :
    nominalCounts v w = nominalLines v w 0 :: (List.range' 1 w).map (nominalLines v w) := by
  have counts : nominalCounts v w = (List.range (w + 1)).map (nominalLines v w) :=
    List.map_congr_left fun i _ => by unfold nominalLines; split <;> rfl
  rw [counts, List.range_eq_range', List.range'_succ]
  rfl

theorem placedBursts_eq (c : Contract) (spans : List Span) (shiftMax : Nat) :
    placedBursts c spans shiftMax = placeWindows spans shiftMax c.lw c.h 0 0 (nominalLines c.v c.w 0)
      ((List.range' 1 c.w).map (nominalLines c.v c.w)) := by
  unfold placedBursts
  rw [nominalCounts_eq]

end Sys2Proof.Machine
end

section
/-! PROOF. Frame plans: the sums of their slots (R57, R63 to R67). -/

namespace Sys2Proof.Machine

/-! Slots one after another (R57). -/

/-- The slots stand one after another, from `t` on to `e`. -/
def slotsTile : Nat → List Slot → Nat → Prop
  | t, [], e => t = e
  | t, x :: xs, e => x.start = t ∧ slotsTile (t + x.length) xs e

theorem slotsTile_append {xs ys : List Slot} {t m e : Nat} (left : slotsTile t xs m) (right : slotsTile m ys e) :
    slotsTile t (xs ++ ys) e := by
  induction xs generalizing t with
  | nil =>
    obtain rfl : t = m := left
    exact right
  | cons x xs ih => exact ⟨left.1, ih left.2⟩

theorem slotsTile.sum_length {xs : List Slot} {t e : Nat} (h : slotsTile t xs e) :
    t + (xs.map Slot.length).sum = e := by
  induction xs generalizing t with
  | nil => exact h
  | cons x xs ih =>
    rw [List.map_cons, List.sum_cons, ← Nat.add_assoc]
    exact ih h.2

theorem slotsTile.head_start {xs : List Slot} {t e : Nat} (h : slotsTile t xs e) (nonempty : xs ≠ []) :
    (xs.head?.map Slot.start) = some t := by
  cases xs with
  | nil => exact absurd rfl nonempty
  | cons x xs => exact congrArg some h.1

theorem slotsTile.contiguous {xs : List Slot} {t e : Nat} (h : slotsTile t xs e) :
    ∀ i x y, xs[i]? = some x → xs[i + 1]? = some y → y.start = x.start + x.length := by
  induction xs generalizing t with
  | nil => exact fun i x y hx => nomatch hx
  | cons z zs ih =>
    obtain ⟨start, rest⟩ := h
    intro i x y hx hy
    cases i with
    | succ i => exact ih rest i x y hx hy
    | zero =>
      obtain rfl : z = x := Option.some.inj hx
      cases zs with
      | nil => exact nomatch hy
      | cons w ws =>
        obtain rfl : w = y := Option.some.inj hy
        rw [start]
        exact rest.1

/-- How long the slots of a kind last together. -/
def lengthOfKind (kind : SlotKind) (xs : List Slot) : Nat :=
  ((xs.filter fun x => decide (x.kind = kind)).map Slot.length).sum

theorem lengthOfKind_append (kind : SlotKind) (xs ys : List Slot) :
    lengthOfKind kind (xs ++ ys) = lengthOfKind kind xs + lengthOfKind kind ys := by
  unfold lengthOfKind
  rw [List.filter_append, List.map_append, List.sum_append]

theorem lengthOfKind_cons (kind : SlotKind) (x : Slot) (xs : List Slot) :
    lengthOfKind kind (x :: xs) = (if x.kind = kind then x.length else 0) + lengthOfKind kind xs := by
  unfold lengthOfKind
  by_cases same : x.kind = kind <;> simp [same]

/-- The line count of a burst. -/
def Slot.burstLines : Slot → Option Nat
  | .burst _ _ _ count => some count
  | _ => none

/-! The bursts of a layout and the windows after them (R57, R65). -/

/-- The lines that placed bursts hold. -/
def placedLines (xs : List (Nat × Option Placement)) : Nat := (xs.map Prod.fst).sum

/-- How many of placed bursts a window follows. -/
def placedWindows (xs : List (Nat × Option Placement)) : Nat := xs.countP fun x => x.2.isSome

theorem placedLines_cons (n : Nat) (w : Option Placement) (xs : List (Nat × Option Placement)) :
    placedLines ((n, w) :: xs) = n + placedLines xs := List.sum_cons

theorem placedWindows_cons (n : Nat) (w : Option Placement) (xs : List (Nat × Option Placement)) :
    placedWindows ((n, w) :: xs) = placedWindows xs + if w.isSome then 1 else 0 := List.countP_cons

section

variable (h lw : Nat) (xs : List (Nat × Option Placement)) (t line j : Nat)

theorem layoutSlots_tile {e : Nat} (ends : t + placedLines xs * h + placedWindows xs * lw = e) :
    slotsTile t (layoutSlots h lw t line j xs) e := by
  induction xs generalizing t line j with
  | nil => simpa [layoutSlots, slotsTile, placedLines, placedWindows] using ends
  | cons x xs ih =>
    obtain ⟨n, _ | w⟩ := x
    · refine ⟨rfl, ih (t + n * h) (line + n) j ?_⟩
      rw [← ends, placedLines_cons, placedWindows_cons, Option.isSome_none, if_neg Bool.false_ne_true]
      ring
    · refine ⟨rfl, rfl, ih (t + n * h + lw) (line + n) (j + 1) ?_⟩
      rw [← ends, placedLines_cons, placedWindows_cons, Option.isSome_some, if_pos rfl]
      ring

theorem layoutSlots_burstLines : (layoutSlots h lw t line j xs).filterMap Slot.burstLines = xs.map Prod.fst := by
  induction xs generalizing t line j with
  | nil => rfl
  | cons x xs ih =>
    obtain ⟨n, _ | w⟩ := x
    · exact congrArg (n :: ·) (ih ..)
    · exact congrArg (n :: ·) (ih ..)

/-- Bursts last H a line, windows Lw′ each, and a layout holds nothing else. -/
theorem layoutSlots_lengthOfKind :
    lengthOfKind .burst (layoutSlots h lw t line j xs) = placedLines xs * h ∧
      lengthOfKind .window (layoutSlots h lw t line j xs) = placedWindows xs * lw ∧
      lengthOfKind .blank (layoutSlots h lw t line j xs) = 0 ∧
      lengthOfKind .trim (layoutSlots h lw t line j xs) = 0 := by
  induction xs generalizing t line j with
  | nil => simp [layoutSlots, lengthOfKind, placedLines, placedWindows]
  | cons x xs ih =>
    obtain ⟨n, _ | w⟩ := x
    · simp [layoutSlots, lengthOfKind_cons, Slot.kind, Slot.length, placedLines_cons, placedWindows_cons, ih,
        Nat.add_mul]
    · simp [layoutSlots, lengthOfKind_cons, Slot.kind, Slot.length, placedLines_cons, placedWindows_cons, ih,
        Nat.add_mul, Nat.add_comm]

end

/-! What the placing of the windows leaves (R67, R72): a shift moves lines from a burst to the one before it. -/

section

variable (spans : List Span) (shiftMax lw h : Nat) (counts : List Nat) (before wins cur : Nat)

theorem placeWindows_lines :
    placedLines (placeWindows spans shiftMax lw h before wins cur counts) = cur + counts.sum := by
  induction counts generalizing before wins cur with
  | nil => rfl
  | cons next rest ih =>
    have leaves := placeWindow_leaves spans shiftMax lw h ((before + cur) * h + wins * lw) next
    rw [placeWindows, placedLines_cons, ih, List.sum_cons]
    omega

theorem placeWindows_windows :
    placedWindows (placeWindows spans shiftMax lw h before wins cur counts) = counts.length := by
  induction counts generalizing before wins cur with
  | nil => rfl
  | cons next rest ih =>
    rw [placeWindows, placedWindows_cons, ih]
    rfl

theorem placeWindows_pos (first : 1 ≤ cur) (others : ∀ n ∈ counts, 1 ≤ n) :
    ∀ n ∈ (placeWindows spans shiftMax lw h before wins cur counts).map Prod.fst, 1 ≤ n := by
  induction counts generalizing before wins cur with
  | nil => exact fun n hn => List.mem_singleton.1 hn ▸ first
  | cons next rest ih =>
    obtain ⟨nextPos, restPos⟩ := List.forall_mem_cons.1 others
    have leaves := placeWindow_leaves spans shiftMax lw h ((before + cur) * h + wins * lw) next
    unfold placeWindows
    exact List.forall_mem_cons.2 ⟨first.trans (Nat.le_add_right ..), ih _ _ _ (by omega) restPos⟩

end

section

variable (c : Contract) (spans : List Span) (shiftMax : Nat)

theorem placedBursts_lines : placedLines (placedBursts c spans shiftMax) = c.v := by
  have all := nominalLinesBefore_all c.v c.w
  unfold nominalLinesBefore at all
  rw [List.range_eq_range', List.range'_succ, List.map_cons, List.sum_cons] at all
  rw [placedBursts_eq, placeWindows_lines]
  exact all

theorem placedBursts_windows : placedWindows (placedBursts c spans shiftMax) = c.w := by
  rw [placedBursts_eq, placeWindows_windows, List.length_map, List.length_range']

/-- With a line for each burst, no burst is left without one (R67). -/
theorem placedBursts_pos (enough : c.w < c.v) : ∀ n ∈ (placedBursts c spans shiftMax).map Prod.fst, 1 ≤ n := by
  have nominal : ∀ i, 1 ≤ nominalLines c.v c.w i := fun i =>
    (Nat.div_pos enough (Nat.succ_pos c.w)).trans_le (Nat.le_add_right ..)
  rw [placedBursts_eq]
  refine placeWindows_pos _ _ _ _ _ _ _ _ (nominal 0) fun n hn => ?_
  obtain ⟨i, -, rfl⟩ := List.mem_map.1 hn
  exact nominal i

/-- BLANK and TRIM, after the bursts and the windows (R66). -/
def planTail (c : Contract) : List Slot :=
  [.blank (c.v * c.h + c.w * c.lw) ((c.vb - 1) * c.h) c.v (c.vb - 1),
   .trim (c.v * c.h + c.w * c.lw + (c.vb - 1) * c.h) (c.h + c.q)]

theorem planSlots_eq : planSlots c spans shiftMax =
    layoutSlots c.h c.lw 0 0 1 (placedBursts c spans shiftMax) ++ planTail c := rfl

theorem planSlots_tile : slotsTile 0 (planSlots c spans shiftMax)
    (c.v * c.h + c.w * c.lw + (c.vb - 1) * c.h + (c.h + c.q)) := by
  rw [planSlots_eq]
  refine slotsTile_append (layoutSlots_tile c.h c.lw _ 0 0 1 rfl) ?_
  rw [placedBursts_lines, placedBursts_windows, Nat.zero_add]
  exact ⟨rfl, rfl, rfl⟩

theorem planSlots_burstLines :
    (planSlots c spans shiftMax).filterMap Slot.burstLines = (placedBursts c spans shiftMax).map Prod.fst := by
  rw [planSlots_eq, List.filterMap_append, layoutSlots_burstLines]
  exact List.append_nil _

theorem planSlots_lengthOfKind :
    lengthOfKind .burst (planSlots c spans shiftMax) = c.v * c.h ∧
      lengthOfKind .window (planSlots c spans shiftMax) = c.w * c.lw ∧
      lengthOfKind .blank (planSlots c spans shiftMax) = (c.vb - 1) * c.h ∧
      lengthOfKind .trim (planSlots c spans shiftMax) = c.h + c.q := by
  obtain ⟨burst, window, blank, trim⟩ := layoutSlots_lengthOfKind c.h c.lw (placedBursts c spans shiftMax) 0 0 1
  rw [placedBursts_lines] at burst
  rw [placedBursts_windows] at window
  simp only [planSlots_eq, lengthOfKind_append, burst, window, blank, trim]
  exact ⟨rfl, rfl, Nat.zero_add _, Nat.zero_add _⟩

end

/-- Settles O49: the slots tile the frame, and a layout's sums are those of the bursts placed in it. -/
theorem planSumsToTheFrame : Obligations.PlanSumsToTheFrame := by
  unfold Obligations.PlanSumsToTheFrame
  intro frame c spans shiftMax allLines lines240 blanks windows16 period _ hminFits slots lengths lines
  obtain ⟨burst, window, blank, trim⟩ := planSlots_lengthOfKind c spans shiftMax
  have tile := planSlots_tile c spans shiftMax
  have counts : lines = (placedBursts c spans shiftMax).map Prod.fst := planSlots_burstLines c spans shiftMax
  have total : c.v * c.h + c.w * c.lw + (c.vb - 1) * c.h + (c.h + c.q) = c.f := by
    obtain ⟨b, vb⟩ : ∃ b, c.vb = b + 1 := ⟨c.vb - 1, by omega⟩
    rw [period, allLines, vb, Nat.add_sub_cancel]
    ring
  refine ⟨?_, ?_, ?_, burst, window, blank, trim, ?_, tile.head_start ?_, tile.contiguous⟩
  · rw [counts]
    exact placedBursts_lines c spans shiftMax
  · rw [counts]
    exact placedBursts_pos c spans shiftMax (by omega)
  · rw [← total, ← tile.sum_length]
    exact (Nat.zero_add _).symm
  · rw [show lengths .trim = c.h + c.q from trim]
    omega
  · exact List.append_ne_nil_of_right_ne_nil _ (List.cons_ne_nil _ _)

end Sys2Proof.Machine
end

section
/-! PROOF. Frame plans: where each window and each burst stands (R56, R57, R64 to R66, R71 to R73). -/

namespace Sys2Proof.Machine

section

variable (c : Contract) (spans : List Span) (shiftMax : Nat)

/-- Window j as a plan places it, from its nominal start (R65, R72). -/
def plannedWindow (j : Nat) : Placement :=
  placeWindow spans shiftMax c.lw c.h (nominalLinesBefore c.v c.w j * c.h + (j - 1) * c.lw) (nominalLines c.v c.w j)

/-- The first line of burst i, counted from 0: its nominal one, moved by the window before it. -/
def plannedLine (i : Nat) : Nat :=
  nominalLinesBefore c.v c.w i + if 1 ≤ i ∧ i ≤ c.w then (plannedWindow c spans shiftMax i).shift else 0

theorem plannedLine_of_window {j : Nat} (first : 1 ≤ j) (last : j ≤ c.w) : plannedLine c spans shiftMax j =
    nominalLinesBefore c.v c.w j + (plannedWindow c spans shiftMax j).shift := by
  unfold plannedLine
  rw [if_pos ⟨first, last⟩]

theorem plannedLine_end : plannedLine c spans shiftMax (c.w + 1) = nominalLinesBefore c.v c.w (c.w + 1) := by
  unfold plannedLine
  rw [if_neg (by omega)]
  rfl

/-- A window moves its burst by no more than the lines the burst has. -/
theorem plannedLine_le (i : Nat) : plannedLine c spans shiftMax i ≤ nominalLinesBefore c.v c.w (i + 1) := by
  have leaves : (plannedWindow c spans shiftMax i).shift = 0 ∨ (plannedWindow c spans shiftMax i).shift < _ :=
    placeWindow_leaves ..
  rw [nominalLinesBefore_succ]
  unfold plannedLine
  split <;> omega

theorem nominalLinesBefore_le_plannedLine (i : Nat) : nominalLinesBefore c.v c.w i ≤ plannedLine c spans shiftMax i :=
  Nat.le_add_right ..

/-- Burst i of a plan, counted from 0. -/
def plannedBurst (i : Nat) : Slot :=
  .burst (plannedLine c spans shiftMax i * c.h + i * c.lw)
    ((plannedLine c spans shiftMax (i + 1) - plannedLine c spans shiftMax i) * c.h) (plannedLine c spans shiftMax i)
    (plannedLine c spans shiftMax (i + 1) - plannedLine c spans shiftMax i)

/-- The WINDOW slot of window j. -/
def plannedWindowSlot (j : Nat) : Slot :=
  .window (plannedLine c spans shiftMax j * c.h + (j - 1) * c.lw) c.lw j (plannedWindow c spans shiftMax j).shift
    (plannedWindow c spans shiftMax j).noisy

/-- Burst i, and the next `n` windows with the bursts after them. -/
def slotsFromBurst : Nat → Nat → List Slot
  | i, 0 => [plannedBurst c spans shiftMax i]
  | i, n + 1 =>
    plannedBurst c spans shiftMax i :: plannedWindowSlot c spans shiftMax (i + 1) :: slotsFromBurst (i + 1) n

theorem length_slotsFromBurst (n i : Nat) : (slotsFromBurst c spans shiftMax i n).length = 2 * n + 1 := by
  induction n generalizing i with
  | zero => rfl
  | succ n ih =>
    unfold slotsFromBurst
    rw [List.length_cons, List.length_cons, ih]
    omega

theorem slotsFromBurst_burst (n i k : Nat) (h : k ≤ n) :
    (slotsFromBurst c spans shiftMax i n)[2 * k]? = some (plannedBurst c spans shiftMax (i + k)) := by
  induction k generalizing n i with
  | zero => cases n <;> rfl
  | succ k ih =>
    obtain ⟨n, rfl⟩ : ∃ m, n = m + 1 := ⟨n - 1, by omega⟩
    rw [Nat.add_comm k 1, ← Nat.add_assoc, ← ih n (i + 1) (by omega), Nat.mul_add, Nat.add_comm (2 * 1)]
    rfl

theorem slotsFromBurst_window (n i k : Nat) (h : k < n) :
    (slotsFromBurst c spans shiftMax i n)[2 * k + 1]? = some (plannedWindowSlot c spans shiftMax (i + k + 1)) := by
  induction k generalizing n i with
  | zero =>
    obtain ⟨n, rfl⟩ : ∃ m, n = m + 1 := ⟨n - 1, by omega⟩
    rfl
  | succ k ih =>
    obtain ⟨n, rfl⟩ : ∃ m, n = m + 1 := ⟨n - 1, by omega⟩
    rw [Nat.add_comm k 1, ← Nat.add_assoc, ← ih n (i + 1) (by omega), Nat.mul_add, Nat.add_comm (2 * 1)]
    rfl

/-- The windows treated so far have left burst i its first line; window i + 1 is placed from its nominal start. -/
theorem placeWindows_planned {i : Nat} (last : i + 1 ≤ c.w) (rest : List Nat) :
    placeWindows spans shiftMax c.lw c.h (plannedLine c spans shiftMax i) i
        (nominalLinesBefore c.v c.w (i + 1) - plannedLine c spans shiftMax i) (nominalLines c.v c.w (i + 1) :: rest) =
      (plannedLine c spans shiftMax (i + 1) - plannedLine c spans shiftMax i,
          some (plannedWindow c spans shiftMax (i + 1))) ::
        placeWindows spans shiftMax c.lw c.h (plannedLine c spans shiftMax (i + 1)) (i + 1)
          (nominalLinesBefore c.v c.w (i + 1 + 1) - plannedLine c spans shiftMax (i + 1)) rest := by
  have low := plannedLine_le c spans shiftMax i
  have line := plannedLine_of_window c spans shiftMax (Nat.le_add_left 1 i) last
  have nominal := nominalLinesBefore_succ c.v c.w (i + 1)
  have window : placeWindow spans shiftMax c.lw c.h (nominalLinesBefore c.v c.w (i + 1) * c.h + i * c.lw)
    (nominalLines c.v c.w (i + 1)) = plannedWindow c spans shiftMax (i + 1) := rfl
  have count : nominalLinesBefore c.v c.w (i + 1) - plannedLine c spans shiftMax i +
      (plannedWindow c spans shiftMax (i + 1)).shift =
      plannedLine c spans shiftMax (i + 1) - plannedLine c spans shiftMax i := by omega
  have taken : nominalLines c.v c.w (i + 1) - (plannedWindow c spans shiftMax (i + 1)).shift =
      nominalLinesBefore c.v c.w (i + 1 + 1) - plannedLine c spans shiftMax (i + 1) := by omega
  rw [placeWindows]
  rw [Nat.add_sub_cancel' low, window, count, taken, ← line]

/-- From burst i on, a layout of the windows placed is the planned bursts and windows. -/
theorem layoutSlots_planned (n i : Nat) (left : i + n = c.w) :
    layoutSlots c.h c.lw (plannedLine c spans shiftMax i * c.h + i * c.lw) (plannedLine c spans shiftMax i) (i + 1)
      (placeWindows spans shiftMax c.lw c.h (plannedLine c spans shiftMax i) i
        (nominalLinesBefore c.v c.w (i + 1) - plannedLine c spans shiftMax i)
        ((List.range' (i + 1) n).map (nominalLines c.v c.w))) = slotsFromBurst c spans shiftMax i n := by
  induction n generalizing i with
  | zero =>
    obtain rfl : i = c.w := left
    rw [← plannedLine_end c spans shiftMax]
    rfl
  | succ n ih =>
    have rest := ih (i + 1) (by omega)
    have onward : plannedLine c spans shiftMax i ≤ plannedLine c spans shiftMax (i + 1) :=
      (plannedLine_le c spans shiftMax i).trans (nominalLinesBefore_le_plannedLine c spans shiftMax (i + 1))
    have start : plannedLine c spans shiftMax i * c.h + i * c.lw +
        (plannedLine c spans shiftMax (i + 1) - plannedLine c spans shiftMax i) * c.h =
        plannedLine c spans shiftMax (i + 1) * c.h + i * c.lw := by
      rw [Nat.add_right_comm, ← Nat.add_mul, Nat.add_sub_cancel' onward]
    have windowEnd : plannedLine c spans shiftMax (i + 1) * c.h + i * c.lw + c.lw =
        plannedLine c spans shiftMax (i + 1) * c.h + (i + 1) * c.lw := by rw [Nat.add_assoc, ← Nat.succ_mul]
    rw [List.range'_succ, List.map_cons, placeWindows_planned c spans shiftMax (by omega)]
    unfold layoutSlots
    rw [start, windowEnd, Nat.add_sub_cancel' onward, rest]
    rfl

theorem planSlots_planned : planSlots c spans shiftMax = slotsFromBurst c spans shiftMax 0 c.w ++ planTail c := by
  have zero : plannedLine c spans shiftMax 0 = 0 := rfl
  have layout := layoutSlots_planned c spans shiftMax c.w 0 (Nat.zero_add _)
  rw [zero, Nat.zero_mul, Nat.zero_mul, nominalLinesBefore_succ] at layout
  rw [planSlots_eq, placedBursts_eq, ← layout]
  simp [nominalLinesBefore]

/-- A slot before BLANK is one of the planned bursts and windows. -/
theorem planSlots_getElem?_of_slotsFromBurst {k : Nat} {x : Slot}
    (h : (slotsFromBurst c spans shiftMax 0 c.w)[k]? = some x) : (planSlots c spans shiftMax)[k]? = some x := by
  rw [planSlots_planned, List.getElem?_append_left (List.getElem?_eq_some_iff.1 h).1]
  exact h

theorem planSlots_getElem?_tail (k : Nat) : (planSlots c spans shiftMax)[2 * c.w + 1 + k]? = (planTail c)[k]? := by
  rw [planSlots_planned, ← length_slotsFromBurst c spans shiftMax c.w 0, List.getElem?_append_right (Nat.le_add_right ..),
    Nat.add_sub_cancel_left]

end

/-- Settles O50: the loop of R72 finds the least shift, and a plan lays out the windows so placed. -/
theorem windowsShiftPastQuietSpans : Obligations.WindowsShiftPastQuietSpans := by
  unfold Obligations.WindowsShiftPastQuietSpans
  refine ⟨fun spans shiftMax lw h a next => ?_, fun frame c spans shiftMax => ?_⟩
  · intro meets allowed placed
    obtain ⟨noisy, clear⟩ := placeWindow_spec spans shiftMax lw h a next
    simp only [collides_iff] at noisy clear
    refine ⟨fun e => ⟨(noisy e).1, fun k ok => (noisy e).2 k ok.1 ok.2⟩, fun e => ?_⟩
    obtain ⟨bound, leaves, misses, before⟩ := clear e
    exact ⟨⟨bound, leaves⟩, misses, before⟩
  · intro plan nominal before placed lines blank
    have length : (planSlots c spans shiftMax).length = 2 * c.w + 3 := by
      rw [planSlots_planned, List.length_append, length_slotsFromBurst]
      rfl
    refine ⟨rfl, length, fun i hi => ?_, fun j first last => ?_, planSlots_getElem?_tail c spans shiftMax 0,
      planSlots_getElem?_tail c spans shiftMax 1⟩
    · have burst := slotsFromBurst_burst c spans shiftMax c.w 0 i hi
      rw [Nat.zero_add] at burst
      exact planSlots_getElem?_of_slotsFromBurst c spans shiftMax burst
    · obtain ⟨k, rfl⟩ : ∃ k, j = k + 1 := ⟨j - 1, by omega⟩
      have window := slotsFromBurst_window c spans shiftMax c.w 0 k last
      rw [Nat.zero_add] at window
      exact planSlots_getElem?_of_slotsFromBurst c spans shiftMax window

end Sys2Proof.Machine
end

section
/-! PROOF. Frame starts at the end of an event, and frame 1 of a waiting runner (R83 to R87, R107, R109). -/

namespace Sys2Proof.Machine

/-! NOTICE after a frame start. -/

theorem State.startFrame_notes (s : State) (p : Pipe) (how : StartKind) (apart : s.peersApart) :
    Notes s (s.startFrame p how).1 := by
  rw [(s.startFrame_eq p how apart).1]
  exact State.noted_notes (s.begun_same p how) fun k => congrArg (fun x => (x.get k).faults) (s.begun_surfaces p how)

/-- Frame 1 starts in the event of the pulse: a pipe that the pulse has moved to SEEKING stays there, and the other pipe
was left alone by the pulse, or is by the frame start. -/
theorem Notes.startFrame {s t : State} (notes : Notes s t) (apart : t.peersApart) {p : Pipe}
    (own : (s.pipe p).Steady (t.pipe p) ∨ (t.pipe p).lock.state = .seeking)
    (other : (s.pipe (otherPipe p)).Steady (t.pipe (otherPipe p)) ∨
      (t.pipe (otherPipe p)).follows .lockedPeer = false) : Notes s (t.startFrame p .aligned).1 := by
  refine notes.trans (t.startFrame_notes p .aligned apart) fun q => ?_
  have begun : (t.startFrame p .aligned).1.pipe q = (t.begun p .aligned).pipe q := by
    rw [(t.startFrame_eq p .aligned apart).1]
    rfl
  rw [begun]
  by_cases hq : q = p
  · subst hq
    rw [State.begun_self]
    exact own.imp_right (PipeState.begun_aligned_steady _ _)
  · obtain rfl := eq_otherPipe hq
    refine other.imp_right fun unfollowed => ?_
    rw [State.begun_unfollowed unfollowed]
    exact .refl _

/-! The event. -/

/-- An event that ends in a frame start, out of a state `t` that is `m` but for NOTICE. -/
theorem beginsFrame_of_publish {c : Instr} {s m t : State} {p : Pipe} {how : StartKind}
    (he : exec c s = .next (publish s (t.startFrame p how).finish)) (fields : t = { m with notice := t.notice })
    (before : m.notice = s.notice) (apart : t.peersApart) (notes : Notes s (t.startFrame p how).1)
    (versions : SameVersions s m) : BeginsFrame c s m p how [] := by
  obtain ⟨begun, hands⟩ := t.startFrame_eq p how apart
  have moved : t.begun p how = { m.begun p how with notice := t.notice } := by rw [← State.begun_notice, ← fields]
  have left : (t.startFrame p how).1 = (m.begun p how).noted s :=
    notes.eq_noted (by rw [begun, moved]; rfl) ((m.begun_same p how).trans before)
  have hands : (t.startFrame p how).2 = m.begunHands p how := by rw [hands, fields]; rfl
  obtain ⟨rqi, time, mem⟩ := m.begun_kept p how
  obtain ⟨q, n, finished, handed⟩ := ((m.begun p how).noted s).handOverGroups_spec (m.begunHands p how)
  rw [Handing.finish, left, hands, finished] at he
  refine ⟨q, ?_, becomes_of_publish he rfl (fun _ => rfl) (versions.trans (m.begun_versions p how))⟩
  simpa only [State.noted, rqi, time, List.nil_append] using handed

/-- An event that is a frame start and nothing else. -/
theorem beginsFrame_at_once {c : Instr} {s : State} {p : Pipe} {how : StartKind}
    (he : exec c s = .next (publish s (s.startFrame p how).finish)) (apart : s.peersApart) :
    BeginsFrame c s s p how [] :=
  beginsFrame_of_publish he rfl rfl apart (s.startFrame_notes p how apart)
    ⟨fun _ => rfl, fun _ => rfl, rfl, rfl⟩

theorem State.isNow_iff (s : State) (t : Option Word) : s.isNow t = true ↔ t = some s.time := decide_eq_true_iff

/-- Settles O32: at either instant the event is the frame start alone. -/
theorem waitingRunnersStartFrameOne : Obligations.WaitingRunnersStartFrameOne := by
  unfold Obligations.WaitingRunnersStartFrameOne
  intro s p apart r aligning
  refine ⟨fun start => ?_, fun unset deadline => ?_⟩
  · have due : s.alignedDue p = true :=
      Bool.and_eq_true_iff.2 ⟨decide_eq_true aligning, (s.isNow_iff _).2 start⟩
    exact beginsFrame_at_once (event_of due fun t => (t.startFrame p .aligned).finish) apart
  · have due : s.alignDeadlineDue p = true :=
      Bool.and_eq_true_iff.2 ⟨decide_eq_true ⟨aligning, unset⟩, (s.isNow_iff _).2 deadline⟩
    exact beginsFrame_at_once (event_of due fun t => (t.startFrame p .deadline).finish) apart

end Sys2Proof.Machine
end

section
/-! PROOF. A reference pulse, and the frames that it starts (R83, R104 to R107, R109, R114, R182). -/

namespace Sys2Proof.Machine

/-! The pipes that a reference pulse reaches. -/

/-- A pipe's blocks after a reference pulse. -/
def PipeState.refPulsed (x : PipeState) (now : Word) : PipeState :=
  if x.follows .lockedRef then x.pulsed now else x

/-- Whether a reference pulse starts frame 1 of a pipe at once. -/
def PipeState.startsOnRef (x : PipeState) : Bool := x.follows .lockedRef && x.startsOnPulse

theorem PipeState.startsOnRef_iff (x : PipeState) :
    x.startsOnRef = true ↔ x.follows .lockedRef = true ∧ x.startsOnPulse = true := Bool.and_eq_true_iff

/-- A state after a reference pulse, before it starts a frame. -/
def State.refPulsed (s : State) : State :=
  { s with
    ref := { s.ref with lastPulse := some s.time },
    pipes := ⟨(s.pipe .p0).refPulsed s.time, (s.pipe .p1).refPulsed s.time⟩,
    pins := pinsPulsed s.pins .reference s.time }

theorem State.refPulsed_pipe (s : State) (p : Pipe) : s.refPulsed.pipe p = (s.pipe p).refPulsed s.time := by
  cases p <;> rfl

theorem PipeState.refPulsed_pb (x : PipeState) (now : Word) : (x.refPulsed now).pb = x.pb := by
  unfold PipeState.refPulsed
  split <;> rfl

theorem PipeState.refPulsed_version (x : PipeState) (now : Word) : (x.refPulsed now).version = x.version := by
  unfold PipeState.refPulsed
  split <;> rfl

theorem PipeState.refPulsed_hands (x : PipeState) (now : Word) (how : StartKind) :
    (x.refPulsed now).startHands how = x.startHands how := by
  unfold PipeState.refPulsed
  split
  · exact x.startHands_pulsed how now
  · rfl

theorem PipeState.refPulsed_follows (x : PipeState) (now : Word) (c : Cadence) :
    (x.refPulsed now).follows c = x.follows c := by
  unfold PipeState.follows
  rw [PipeState.refPulsed_pb]

theorem PipeState.refPulsed_steady (x : PipeState) (now : Word) :
    x.Steady (x.refPulsed now) ∨ (x.refPulsed now).lock.state = .seeking := by
  unfold PipeState.refPulsed
  split
  · exact x.pulsed_steady now
  · exact .inl (.refl x)

/-- A pipe that a reference pulse moves takes no pulse of the other pipe. -/
theorem PipeState.refPulsed_unfollowed (x : PipeState) (now : Word) :
    x.Steady (x.refPulsed now) ∨ (x.refPulsed now).follows .lockedPeer = false := by
  by_cases ref : x.follows .lockedRef = true
  · rw [PipeState.refPulsed_follows]
    exact .inr (PipeState.follows_unique ref (by decide))
  · have same : x.refPulsed now = x := if_neg ref
    rw [same]
    exact .inl (.refl x)

theorem State.takeRefPulse_eq (s : State) (p : Pipe) :
    s.takeRefPulse p = ({ s.withPipe p ((s.pipe p).refPulsed s.time) with notice := (s.takeRefPulse p).1.notice },
      (s.pipe p).startsOnRef) := by
  unfold State.takeRefPulse PipeState.refPulsed PipeState.startsOnRef
  by_cases follows : (s.pipe p).follows .lockedRef = true
  · rw [if_pos follows, if_pos follows, follows, Bool.true_and, State.takePulse_eq]
  · rw [if_neg follows, if_neg follows, Bool.eq_false_iff.2 follows, Bool.false_and]
    cases p <;> rfl

theorem State.takeRefPulse_notes (s : State) (p : Pipe) : Notes s (s.takeRefPulse p).1 := by
  unfold State.takeRefPulse
  split
  · exact s.takePulse_notes p
  · exact .refl s

/-- A reference pulse by what it leaves, NOTICE apart, and by the frames that it starts. -/
theorem State.refPulse_eq (s : State) : ∃ n, let t : State := { s.refPulsed with notice := n }
    Notes s t ∧ s.refPulse = match (s.pipe .p0).startsOnRef, (s.pipe .p1).startsOnRef with
      | false, false => (t, [])
      | true, false => t.startFrame .p0 .aligned
      | false, true => t.startFrame .p1 .aligned
      | true, true => t.draw.2.startBoth (permuteBy 2 (Config.pulseOrder t.draw.1) [.p0, .p1]) := by
  have pins := (s.modRef fun r => { r with lastPulse := some s.time }).pulsePins_eq .reference
  have recorded : Notes s ((s.modRef fun r => { r with lastPulse := some s.time }).pulsePins .reference) :=
    .quiet rfl (fun _ => .refl _) fun _ => rfl
  unfold State.refPulse
  dsimp only
  generalize (s.modRef fun r => { r with lastPulse := some s.time }).pulsePins .reference = u at *
  have first := u.takeRefPulse_eq .p0
  have note0 := u.takeRefPulse_notes .p0
  have kept1 := u.takeRefPulse_other (p := .p0) (q := .p1) (by decide)
  generalize u.takeRefPulse .p0 = x at *
  obtain ⟨v, starts⟩ := x
  obtain ⟨fields, rfl⟩ := Prod.mk.inj first
  dsimp only at *
  have second := v.takeRefPulse_eq .p1
  have note1 := v.takeRefPulse_notes .p1
  have kept0 := v.takeRefPulse_other (p := .p1) (q := .p0) (by decide)
  generalize v.takeRefPulse .p1 = y at *
  obtain ⟨t, starts⟩ := y
  obtain ⟨fields', rfl⟩ := Prod.mk.inj second
  dsimp only at *
  have left : t = { s.refPulsed with notice := t.notice } := by
    rw [fields', fields, pins]
    rfl
  refine ⟨t.notice, ?_⟩
  rw [← left]
  refine ⟨?_, ?_⟩
  · refine (recorded.trans note0 fun p => .inl (by rw [pins]; exact .refl _)).trans note1 fun p => ?_
    cases p with
    | p0 => exact .inr (by rw [kept0]; exact .refl _)
    | p1 => exact .inl (by rw [kept1, pins]; exact .refl _)
  · rw [kept1, pins]
    rfl

/-! Two frame starts in one event. -/

theorem pinsPulsed_comm (pins : Vector Pin 4) {a b : PinSource} (ne : a ≠ b) (now : Word) :
    pinsPulsed (pinsPulsed pins a now) b now = pinsPulsed (pinsPulsed pins b now) a now := by
  unfold pinsPulsed
  rw [Vector.map_map, Vector.map_map]
  congr 1
  funext pin
  by_cases ha : pin.source = a
  · simp [ha, ne]
  · by_cases hb : pin.source = b
    · simp [hb, ne.symm]
    · simp [ha, hb]

/-- Frame 1 of both pipes starts, and neither start is a peer pulse. -/
def State.begunBoth (s : State) : State := (s.begunAlone .p0 .aligned).begunAlone .p1 .aligned

theorem State.begunBoth_versions (s : State) : SameVersions s s.begunBoth :=
  (s.begunAlone_versions .p0 .aligned).trans (State.begunAlone_versions _ .p1 .aligned)

/-- Both frame starts read nothing of NOTICE and draw no free value. -/
theorem State.begunBoth_apart (s : State) (n : Notices) (f : Nat) :
    { s with notice := n, free := f }.begunBoth = { s.begunBoth with notice := n, free := f } := rfl

theorem State.begunBoth_kept (s : State) :
    s.begunBoth.rqi = s.rqi ∧ s.begunBoth.time = s.time ∧ s.begunBoth.notice = s.notice := ⟨rfl, rfl, rfl⟩

/-- The order of the two frame starts does not show: each pipe's own, and their pins apart. -/
theorem State.begunAlone_begunAlone (s : State) (p : Pipe) :
    (s.begunAlone p .aligned).begunAlone (otherPipe p) .aligned = s.begunBoth := by
  have pins := pinsPulsed_comm s.pins (a := .frameStart .p1) (b := .frameStart .p0) (by decide) s.time
  cases p with
  | p0 => rfl
  | p1 =>
    show ({ s.begunBoth with
      pins := pinsPulsed (pinsPulsed s.pins (.frameStart .p1) s.time) (.frameStart .p0) s.time } : State) = _
    rw [pins]
    rfl

/-- A frame start that is no peer pulse is a frame start of its own pipe alone. -/
theorem State.startFrame_unfollowed {s : State} {p : Pipe} (h : (s.pipe (otherPipe p)).follows .lockedPeer = false)
    (how : StartKind) : s.startFrame p how = s.startLocal p how := by
  unfold State.startFrame
  dsimp only
  rw [s.startLocal_other how (otherPipe_ne p), h]
  rfl

/-- Frame 1 starts in the event of the pulse, and is no peer pulse. -/
theorem Notes.startLocal {s t : State} (notes : Notes s t) {p : Pipe}
    (own : (s.pipe p).Steady (t.pipe p) ∨ (t.pipe p).lock.state = .seeking) :
    Notes s (t.startLocal p .aligned).1 := by
  refine notes.trans (t.startLocal_notes p .aligned) fun q => ?_
  by_cases hq : q = p
  · subst hq
    rw [State.startLocal_pipe]
    exact own.imp_right (PipeState.begun_aligned_steady _ _)
  · rw [State.startLocal_other _ _ hq]
    exact .inr (.refl _)

/-- Both frame starts of one event, in the order of `p`, where neither pipe follows the other. -/
theorem State.startBoth_spec {s t : State} (notes : Notes s t) (p : Pipe)
    (own : ∀ q, (s.pipe q).Steady (t.pipe q) ∨ (t.pipe q).lock.state = .seeking)
    (unfollowed : ∀ q, (t.pipe q).follows .lockedPeer = false) :
    ∃ n, let u : State := { t.begunBoth with notice := n }
    Notes s u ∧ t.startBoth [p, otherPipe p] =
      (u, (t.pipe p).startHands .aligned ++ (t.pipe (otherPipe p)).startHands .aligned) := by
  have kept := fun q => t.startLocal_other (p := p) (q := q) .aligned
  have first := notes.startLocal (own p)
  have fields := t.startLocal_fields p .aligned
  have hands := t.startLocal_hands p .aligned
  have shape : t.startBoth [p, otherPipe p] =
      let x := t.startFrame p .aligned
      let y := x.1.startFrame (otherPipe p) .aligned
      (y.1, x.2 ++ (y.2 ++ [])) := rfl
  rw [State.startFrame_unfollowed (unfollowed _)] at shape
  generalize t.startLocal p .aligned = x at *
  obtain ⟨u, gs⟩ := x
  dsimp only at *
  have peer := kept (otherPipe p) (otherPipe_ne p)
  have own' : (s.pipe (otherPipe p)).Steady (u.pipe (otherPipe p)) ∨ (u.pipe (otherPipe p)).lock.state = .seeking :=
    peer ▸ own (otherPipe p)
  have still : (u.pipe (otherPipe (otherPipe p))).follows .lockedPeer = false := by
    rw [fields]
    cases p <;> exact unfollowed _
  rw [State.startFrame_unfollowed still, List.append_nil, State.startLocal_hands, peer, hands] at shape
  rw [shape]
  have left := (u.startLocal_fields (otherPipe p) .aligned).trans (show _ =
    ({ (t.begunAlone p .aligned).begunAlone (otherPipe p) .aligned with
      notice := (u.startLocal (otherPipe p) .aligned).1.notice } : State) by rw [fields]; rfl)
  rw [State.begunAlone_begunAlone] at left
  refine ⟨_, ?_, Prod.ext left rfl⟩
  rw [← left]
  exact first.startLocal own'

/-- Handing over takes the owners in any order. -/
theorem HandedOver.perm {x y : Rqi} {now : Word} {gs hs : List (List Completion)} (h : HandedOver x now gs y)
    (perm : gs.Perm hs) : HandedOver x now hs y := by
  have none : gs.flatten = [] ↔ hs.flatten = [] := by
    rw [← List.perm_nil, ← List.perm_nil]
    exact ⟨perm.flatten.symm.trans, perm.flatten.trans⟩
  unfold HandedOver at h ⊢
  by_cases empty : gs.flatten = []
  · rw [if_pos empty] at h
    rwa [if_pos (none.1 empty)]
  · rw [if_neg empty] at h
    rw [if_neg (none.not.1 empty)]
    obtain ⟨order, of, rfl⟩ := h
    exact ⟨order, of.trans perm, rfl⟩

theorem permuteBy_pipes (fuel n : Nat) : ∃ p, permuteBy fuel n [Pipe.p0, .p1] = [p, otherPipe p] := by
  have perm := permuteBy_perm fuel n [Pipe.p0, .p1]
  obtain ⟨p, q, pair⟩ := List.length_eq_two.1 perm.length_eq
  have apart : [p, q].Nodup := pair ▸ perm.nodup_iff.2 (by decide)
  obtain rfl := eq_otherPipe (p := p) (q := q) fun e => by simp [e] at apart
  exact ⟨p, pair⟩

/-- An event that ends in both frame starts, out of a state that is `m` but for NOTICE and the free values drawn. -/
theorem becomes_of_startBoth {c : Instr} {s m : State} {p : Pipe} {n : Notices} {f : Nat}
    (he : exec c s = .next (publish s (State.startBoth { m with notice := n, free := f } [p, otherPipe p]).finish))
    (notes : Notes s { m with notice := n }) (before : m.notice = s.notice)
    (own : ∀ q, (s.pipe q).Steady (m.pipe q) ∨ (m.pipe q).lock.state = .seeking)
    (unfollowed : ∀ q, (m.pipe q).follows .lockedPeer = false) (versions : SameVersions s m) :
    ∃ q, HandedOver m.rqi m.time ((m.pipe .p0).startHands .aligned ++ (m.pipe .p1).startHands .aligned) q ∧
      Becomes c s ({ m.begunBoth with rqi := q }.noted s) := by
  have drawn : Notes s { m with notice := n, free := f } :=
    ⟨notes.cell, notes.report, notes.pipe, notes.fault, notes.surfaces⟩
  obtain ⟨n', noted, left⟩ := State.startBoth_spec drawn p own unfollowed
  rw [State.begunBoth_apart] at left noted
  obtain ⟨rqi, time, notice⟩ := m.begunBoth_kept
  have versions := versions.trans m.begunBoth_versions
  generalize m.begunBoth = u at *
  have noted := noted.eq_noted (u := { u with free := f }) rfl (notice.trans before)
  obtain ⟨q, f', finished, handed⟩ := State.handOverGroups_spec (State.noted { u with free := f } s)
    ((m.pipe p).startHands .aligned ++ (m.pipe (otherPipe p)).startHands .aligned)
  have perm : ((m.pipe p).startHands .aligned ++ (m.pipe (otherPipe p)).startHands .aligned).Perm
      ((m.pipe .p0).startHands .aligned ++ (m.pipe .p1).startHands .aligned) := by
    cases p
    · exact .refl _
    · exact List.perm_append_comm
  have ended : (State.startBoth { m with notice := n, free := f } [p, otherPipe p]).finish =
      { u.noted s with rqi := q, free := f' } := by
    rw [left, Handing.finish, noted]
    exact finished
  have handed : HandedOver u.rqi u.time _ q := handed.perm perm
  rw [rqi, time] at handed
  rw [ended] at he
  exact ⟨q, handed, becomes_of_publish he rfl (fun _ => rfl) versions⟩

/-! The event. -/

section

variable {c : Instr} {s : State} {g : RefUnit → RefUnit}

theorem Notes.of_modRef {t : State} (h : Notes (s.modRef g) t) : Notes s t :=
  ⟨h.cell, h.report, h.pipe, h.fault, h.surfaces⟩

theorem State.refPulsed_versions (version : (g s.ref).version = s.ref.version) :
    SameVersions s (s.modRef g).refPulsed := by
  refine ⟨fun p => ?_, fun _ => rfl, rfl, version⟩
  rw [State.refPulsed_pipe]
  exact PipeState.refPulsed_version _ _

theorem becomes_of_refPulse (he : exec c s = .next (publish s (s.modRef g).refPulse.finish))
    (version : (g s.ref).version = s.ref.version) (none : ∀ p, ¬ (s.pipe p).startsOnRef = true) :
    Becomes c s ((s.modRef g).refPulsed.noted s) := by
  have quiet : ∀ p, ((s.modRef g).pipe p).startsOnRef = false := fun p => Bool.eq_false_iff.2 (none p)
  obtain ⟨n, notes, pulse⟩ := (s.modRef g).refPulse_eq
  rw [quiet, quiet] at pulse
  have left : (s.modRef g).refPulse.finish = (s.modRef g).refPulsed.noted s := by
    rw [pulse]
    exact notes.of_modRef.eq_noted rfl rfl
  rw [left] at he
  exact becomes_of_publish he rfl (fun _ => rfl) (State.refPulsed_versions version)

theorem beginsFrame_of_refPulse (he : exec c s = .next (publish s (s.modRef g).refPulse.finish))
    (version : (g s.ref).version = s.ref.version) (apart : s.peersApart) (p : Pipe)
    (starts : (s.pipe p).startsOnRef = true) (alone : ¬ (s.pipe (otherPipe p)).startsOnRef = true) :
    BeginsFrame c s (s.modRef g).refPulsed p .aligned [] := by
  obtain ⟨n, notes, pulse⟩ := (s.modRef g).refPulse_eq
  have begins : (s.modRef g).refPulse = State.startFrame { (s.modRef g).refPulsed with notice := n } p .aligned := by
    have one : ((s.modRef g).pipe p).startsOnRef = true := starts
    have two : ((s.modRef g).pipe (otherPipe p)).startsOnRef = false := Bool.eq_false_iff.2 alone
    rw [pulse]
    cases p
    · rw [one, show ((s.modRef g).pipe .p1).startsOnRef = false from two]
    · rw [one, show ((s.modRef g).pipe .p0).startsOnRef = false from two]
  have pipe : ∀ q, State.pipe { (s.modRef g).refPulsed with notice := n } q = (s.pipe q).refPulsed s.time :=
    (s.modRef g).refPulsed_pipe
  have apart' : State.peersApart { (s.modRef g).refPulsed with notice := n } :=
    State.peersApart_congr apart fun q => by
      rw [pipe, PipeState.refPulsed_pb]
      exact ⟨rfl, rfl⟩
  rw [begins] at he
  refine beginsFrame_of_publish he rfl rfl apart' (notes.of_modRef.startFrame apart' ?_ ?_)
    (State.refPulsed_versions version)
  · rw [pipe]
    exact PipeState.refPulsed_steady _ _
  · rw [pipe]
    exact PipeState.refPulsed_unfollowed _ _

theorem becomes_of_refPulse_both (he : exec c s = .next (publish s (s.modRef g).refPulse.finish))
    (version : (g s.ref).version = s.ref.version) (starts : ∀ p, (s.pipe p).startsOnRef = true) :
    ∃ q, HandedOver s.rqi s.time ((s.pipe .p0).startHands .aligned ++ (s.pipe .p1).startHands .aligned) q ∧
      Becomes c s ({ (s.modRef g).refPulsed.begunBoth with rqi := q }.noted s) := by
  have both : ∀ p, ((s.modRef g).pipe p).startsOnRef = true := starts
  have pipe : ∀ q, (s.modRef g).refPulsed.pipe q = (s.pipe q).refPulsed s.time := (s.modRef g).refPulsed_pipe
  obtain ⟨n, notes, pulse⟩ := (s.modRef g).refPulse_eq
  obtain ⟨p, order⟩ := permuteBy_pipes 2 (Config.pulseOrder s.free)
  have begins : (s.modRef g).refPulse =
      State.startBoth { (s.modRef g).refPulsed with notice := n, free := s.free + 1 } [p, otherPipe p] := by
    rw [pulse, both, both, ← order]
    rfl
  rw [begins] at he
  have started := becomes_of_startBoth he notes.of_modRef rfl
    (fun q => by rw [pipe]; exact PipeState.refPulsed_steady _ _)
    (fun q => by
      obtain ⟨follows, -⟩ := (s.pipe q).startsOnRef_iff.1 (starts q)
      rw [pipe, PipeState.refPulsed_follows]
      exact PipeState.follows_unique follows (by decide))
    (State.refPulsed_versions version)
  rwa [pipe, pipe, PipeState.refPulsed_hands, PipeState.refPulsed_hands] at started

end

/-- Settles O37: both events are a reference pulse after a change of the Reference Unit. -/
theorem referencePulsesReachTheirPipes : Obligations.ReferencePulsesReachTheirPipes := by
  unfold Obligations.ReferencePulsesReachTheirPipes
  intro s apart starts after pulse reaches early
  have starts_iff : ∀ p, (s.pipe p).startsOnRef = true ↔ starts p := fun p => (s.pipe p).startsOnRef_iff
  have pulsed : ∀ (c : Instr) (g : RefUnit → RefUnit), exec c s = .next (publish s (s.modRef g).refPulse.finish) →
      (g s.ref).version = s.ref.version → reaches c (pulse (g s.ref)) := fun c g he version => by
    refine ⟨fun no0 no1 => ?_, fun p one other => ?_, fun one two => ?_⟩
    · exact becomes_of_refPulse he version fun p => (starts_iff p).not.2 (by cases p <;> assumption)
    · exact beginsFrame_of_refPulse he version apart p ((starts_iff p).2 one) ((starts_iff _).not.2 other)
    · exact becomes_of_refPulse_both he version fun p => (starts_iff p).2 (by cases p <;> assumption)
  have early_iff : s.edgeEarly = true ↔ early := by
    unfold State.edgeEarly State.since
    show _ ↔ ∃ t, s.ref.lastPulse = some t ∧ (s.time - t).toNat < s.ref.fref / 2
    cases s.ref.lastPulse <;> simp
  have edge : s.ref.source = .external → exec .refsyncEdge s = .next (publish s s.takeEdge) := fun external =>
    event_of (decide_eq_true external) State.takeEdge
  refine ⟨fun internal phase => ?_, fun external late => ?_, fun external soon => ?_, fun internal => ?_⟩
  · have due : s.generatorDue = true :=
      Bool.and_eq_true_iff.2 ⟨decide_eq_true internal, (s.isNow_iff _).2 phase⟩
    exact pulsed .generatedPulse _ (event_of due State.generatePulse) rfl
  · have executed := edge external
    unfold State.takeEdge at executed
    rw [if_neg (early_iff.not.2 late)] at executed
    exact pulsed .refsyncEdge _ executed rfl
  · have executed := edge external
    unfold State.takeEdge at executed
    rw [if_pos (early_iff.2 soon)] at executed
    exact becomes_of_publish executed rfl (fun _ => rfl) ⟨fun _ => rfl, fun _ => rfl, rfl, rfl⟩
  · have ignored : ¬ decide (s.ref.source = .external) = true := by
      rw [internal]
      decide
    exact event_of_not ignored State.takeEdge

end Sys2Proof.Machine
end

section
/-! PROOF. A request at the arbiter, with what NOTICE says of the losses (R136, R137, R139, R141, R144, R177). -/

namespace Sys2Proof.Machine

/-! NOTICE after losses. -/

/-- Flags that only rise from `a` to `b` to `c` have changed on the way exactly when they have changed in all. -/
theorem SurfaceFaults.changed_iff {a b c : SurfaceFaults} (first : ∀ f, a.get f = true → b.get f = true)
    (second : ∀ f, b.get f = true → c.get f = true) : (b ≠ a ∨ c ≠ b) ↔ c ≠ a := by
  have between : c = a → b = a := by
    rintro rfl
    have flag := fun f => Bool.eq_iff_iff.2 ⟨second f, first f⟩
    cases b
    cases c
    exact (SurfaceFaults.mk.injEq ..).mpr ⟨flag .windowLost, flag .frameSkipped, flag .noisyWindow⟩
  constructor
  · rintro changed rfl
    exact changed.elim (fun h => h (between rfl)) fun h => h (between rfl).symm
  · intro changed
    by_contra same
    simp only [not_or, not_not] at same
    exact changed (same.2.trans same.1)

/-- What leads from `s` to `t` is the arbiter's: it moves the bank and the surfaces alone, and NOTICE says what became of
the surfaces' fault sets, in which no flag is cleared. -/
structure LossNotes (s t : State) : Prop where
  rest  : t = { s with bank := t.bank, surfaces := t.surfaces, notice := { s.notice with fault := t.notice.fault } }
  fault : t.notice.fault = true ↔ s.notice.fault = true ∨ ∃ k, (t.surf k).faults ≠ (s.surf k).faults
  kept  : ∀ k f, (s.surf k).faults.get f = true → (t.surf k).faults.get f = true

namespace LossNotes
variable {s t u : State}

theorem refl (s : State) : LossNotes s s where
  rest := rfl
  fault := ⟨.inl, fun h => h.elim id fun ⟨_, changed⟩ => absurd rfl changed⟩
  kept _ _ := id

theorem trans (h : LossNotes s t) (h' : LossNotes t u) : LossNotes s u where
  rest := by
    have second := h'.rest
    rw [h.rest] at second
    exact second
  fault := by
    rw [h'.fault, h.fault, or_assoc, ← exists_or]
    exact or_congr_right (exists_congr fun k => SurfaceFaults.changed_iff (h.kept k) (h'.kept k))
  kept k f := h'.kept k f ∘ h.kept k f

/-- A change of the bank before an operation of the arbiter, or after it. -/
theorem afterBank {b : Bank} (h : LossNotes { s with bank := b } t) : LossNotes s t := ⟨h.rest, h.fault, h.kept⟩

theorem withBank (h : LossNotes s t) (b : Bank) : LossNotes s { t with bank := b } where
  rest := by
    conv_lhs => rw [h.rest]
  fault := h.fault
  kept := h.kept

end LossNotes

/-- An event of the pipes that ends in an operation of the arbiter. -/
theorem Notes.eq_noted_losses {s t u v : State} (notes : Notes s t) (losses : LossNotes t u)
    (fields : u = { v with notice := u.notice }) (before : v.notice = s.notice) : u = v.noted s := by
  have cell : u.notice.cell = t.notice.cell := congrArg (·.notice.cell) losses.rest
  have report : u.notice.report = t.notice.report := congrArg (·.notice.report) losses.rest
  have pipe : u.notice.pipe = t.notice.pipe := congrArg (·.notice.pipe) losses.rest
  have pipes : ∀ p, t.pipe p = v.pipe p := fun p => by
    have own : u.pipe p = t.pipe p := by rw [losses.rest]; rfl
    rw [← own, fields]
    rfl
  have surfaces : ∀ k, u.surf k = v.surf k := fun k => by rw [fields]; rfl
  have same : u.notice = (v.noted s).notice := by
    refine Notices.mk.injEq .. |>.mpr ⟨?_, ?_, ?_, ?_⟩
    · exact (cell.trans notes.cell).trans (congrArg _ before.symm)
    · exact (report.trans notes.report).trans (congrArg _ before.symm)
    · rw [Bool.eq_iff_iff, pipe, notes.pipe, exists_pipe, pipes, pipes, ← before]
      simp only [Bool.or_eq_true, decide_eq_true_eq, or_assoc]
    · have changed : (∃ k, (v.surf k).faults ≠ (s.surf k).faults) ↔
          (v.surf .s0).faults ≠ (s.surf .s0).faults ∨ (v.surf .s1).faults ≠ (s.surf .s1).faults :=
        ⟨fun ⟨k, h⟩ => by cases k <;> [exact .inl h; exact .inr h], fun h => h.elim (⟨_, ·⟩) (⟨_, ·⟩)⟩
      rw [Bool.eq_iff_iff, losses.fault, notes.fault, exists_pipe, pipes, pipes, ← before]
      simp only [notes.surfaces, surfaces, changed, Bool.or_eq_true, decide_eq_true_eq, or_assoc]
  rw [fields, same]
  rfl

/-! Losses and grants (R137, R139, R141, R144). -/

theorem State.losing_faults (s : State) (k : Surface) :
    ((s.losing k).surf k).faults = (s.surf k).faults.put .windowLost := by cases k <;> rfl

theorem State.losing_other (s : State) {k f : Surface} (ne : f ≠ k) : (s.losing k).surf f = s.surf f :=
  PerSurface.get_set_ne _ ne _

theorem SurfaceFaults.put_ne (x : SurfaceFaults) (f : SurfaceFault) : x.put f ≠ x ↔ x.get f = false := by
  rw [← Bool.not_eq_true]
  refine not_congr ⟨fun same => ?_, x.put_of_get f⟩
  have set := x.get_put f f
  rwa [same, decide_eq_true rfl, Bool.true_or] at set

theorem State.loseRequest_spec (s : State) (k : Surface) : ∃ n, let t : State := { s.losing k with notice := n }
    LossNotes s t ∧ s.loseRequest k = t := by
  refine ⟨{ s.notice with fault := s.notice.fault || !(s.surf k).faults.get .windowLost }, ⟨rfl, ?_, fun f g => ?_⟩, ?_⟩
  · have changed : (∃ f, ((s.losing k).surf f).faults ≠ (s.surf f).faults) ↔
        (s.surf k).faults.get .windowLost = false := by
      rw [← SurfaceFaults.put_ne, ← State.losing_faults]
      refine ⟨fun ⟨f, h⟩ => ?_, fun h => ⟨k, h⟩⟩
      by_cases hf : f = k
      · exact hf ▸ h
      · exact absurd (congrArg (·.faults) (s.losing_other hf)) h
    rw [Bool.or_eq_true, Bool.not_eq_true', ← changed]
    rfl
  · show (s.surf f).faults.get g = true → ((s.losing k).surf f).faults.get g = true
    by_cases hf : f = k
    · subst hf
      rw [State.losing_faults, SurfaceFaults.get_put, Bool.or_eq_true]
      exact .inr
    · rw [s.losing_other hf]
      exact id
  · have saturates : satHalf = fun n => min 65535 (n + 1) := funext fun n => Nat.min_comm (n + 1) 65535
    unfold State.loseRequest State.countLoss
    rw [State.raiseSurfaceFault_eq, saturates]
    cases k <;> rfl

theorem State.granting_notice (s : State) (r : BankRequest) (n : Notices) :
    { s with notice := n }.granting r = { s.granting r with notice := n } := by
  have rows : State.scanRowCount { s with notice := n } r = s.scanRowCount r := rfl
  unfold State.granting
  rw [rows]
  dsimp only
  by_cases own : s.bank.surface = r.surface
  · rw [if_pos own, if_pos own]
    by_cases short : s.scanRowCount r = 0
    · rw [if_pos short, if_pos short]
      rfl
    · rw [if_neg short, if_neg short]
      rfl
  · rw [if_neg own, if_neg own]

/-- A grant frees the bank again where it parks it. -/
theorem State.grant_spec (s : State) (r : BankRequest) : ∃ n, let t : State := { s.granting r with notice := n }
    LossNotes s t ∧ s.grant r = (t, decide (t.bank.mode = .parked)) := by
  have rows : (s.modBank fun b => b.counted r.surface s.time).scanRowCount r = s.scanRowCount r := rfl
  have counted : s.grant r = if s.bank.surface = r.surface
      then (s.modBank fun b => b.counted r.surface s.time).startScan r
      else ({ s with bank := (s.bank.counted r.surface s.time).retuning r r.surface s.time }, false) := rfl
  rw [counted]
  unfold State.granting
  dsimp only
  by_cases own : s.bank.surface = r.surface
  · rw [if_pos own, if_pos own]
    unfold State.startScan
    rw [rows]
    dsimp only
    by_cases short : s.scanRowCount r = 0
    · rw [if_pos short, if_pos short]
      obtain ⟨n, losses, lost⟩ := (s.modBank fun b => b.counted r.surface s.time).loseRequest_spec r.surface
      refine ⟨n, losses.afterBank.withBank _, ?_⟩
      rw [lost, ← own]
      rfl
    · rw [if_neg short, if_neg short]
      exact ⟨s.notice, (LossNotes.refl s).withBank _, rfl⟩
  · rw [if_neg own, if_neg own]
    exact ⟨s.notice, (LossNotes.refl s).withBank _, rfl⟩

/-! The freed bank (R141). -/

theorem State.grantsNext_notice (s : State) (n : Notices) :
    { s with notice := n }.grantsNext = { s.grantsNext with notice := n } := by
  unfold State.grantsNext
  dsimp only
  cases s.bank.chosen with
  | none => rfl
  | some r => exact (s.unwait r.surface).granting_notice r n

theorem State.freed_notice (s : State) (n : Notices) : { s with notice := n }.freed = { s.freed with notice := n } := by
  unfold State.freed
  rw [State.grantsNext_notice]
  dsimp only
  by_cases parked : s.grantsNext.bank.mode = .parked
  · rw [if_pos parked, if_pos parked, State.grantsNext_notice]
  · rw [if_neg parked, if_neg parked]

theorem State.serveWaiting_none {s : State} (h : s.bank.chosen = none) (n : Nat) : s.serveWaiting n = s := by
  cases n with
  | zero => rfl
  | succ n =>
    unfold State.serveWaiting
    rw [Bank.nextWaiting_eq, h]

/-- One grant of the freed bank, and the next where it parks the bank. -/
theorem State.serveWaiting_spec (s : State) (n : Nat) : ∃ m, let t : State := { s.grantsNext with notice := m }
    LossNotes s t ∧ s.serveWaiting (n + 1) = if t.bank.mode = .parked then t.serveWaiting n else t := by
  unfold State.grantsNext
  cases chosen : s.bank.chosen with
  | none =>
    refine ⟨s.notice, .refl s, ?_⟩
    dsimp only
    rw [State.serveWaiting_none chosen, State.serveWaiting_none chosen, ite_self]
  | some r =>
    obtain ⟨m, losses, granted⟩ := (s.unwait r.surface).grant_spec r
    refine ⟨m, losses.afterBank, ?_⟩
    dsimp only at granted ⊢
    rw [State.serveWaiting, Bank.nextWaiting_eq, chosen]
    dsimp only
    rw [granted]
    exact if_congr decide_eq_true_iff rfl rfl

theorem State.freeBank_spec (s : State) : ∃ n, let t : State := { s.freed with notice := n }
    LossNotes s t ∧ s.freeBank = t := by
  obtain ⟨n, first, served⟩ := s.serveWaiting_spec 1
  obtain ⟨m, second, again⟩ := State.serveWaiting_spec { s.grantsNext with notice := n } 0
  have ends : ∀ t : State, t.serveWaiting 0 = t := fun _ => rfl
  rw [State.grantsNext_notice s.grantsNext n] at second
  rw [State.grantsNext_notice s.grantsNext n, ends, ite_self] at again
  unfold State.freeBank State.freed
  rw [served]
  dsimp only
  by_cases parked : s.grantsNext.bank.mode = .parked
  · rw [if_pos parked, if_pos parked]
    exact ⟨m, first.trans second, again⟩
  · rw [if_neg parked, if_neg parked]
    exact ⟨n, first, rfl⟩

/-! Arrivals (R136). -/

/-- Whether a request arrives past its expiry. -/
def State.arrivesLate (s : State) (r : BankRequest) : Bool :=
  decide (r.surface = .s0 ∧ 2 ^ 31 ≤ (r.expiry - s.time).toNat)

section

variable {s : State}

theorem State.arriving_parked (parked : s.bank.mode = .parked) (r : BankRequest) : s.arriving r =
    if s.arrivesLate r = true ∧ s.bank.surface ≠ .s0 then s.losing r.surface
    else if (s.granting r).bank.mode = .parked then (s.granting r).freed else s.granting r := by
  unfold State.arriving
  rw [parked]
  rfl

theorem State.arriving_busy (busy : s.bank.mode ≠ .parked) (r : BankRequest) : s.arriving r =
    if s.arrivesLate r = true then s.losing r.surface
    else
      let u := if (s.bank.waiting.get r.surface).isSome then s.losing r.surface else s
      { u with bank := { u.bank with waiting := u.bank.waiting.set r.surface (some r) } } := by
  unfold State.arriving
  cases mode : s.bank.mode with
  | parked => exact absurd mode busy
  | retuning => rfl
  | scanning => rfl

theorem State.requestArrives_eq (s : State) (r : BankRequest) : s.requestArrives r =
    if s.arrivesLate r = true ∧ ¬ (s.bank.mode = .parked ∧ s.bank.surface = .s0) then s.loseRequest r.surface
    else if s.bank.mode = .parked then if (s.grant r).2 then (s.grant r).1.freeBank else (s.grant r).1
    else (if (s.bank.waiting.get r.surface).isSome then s.loseRequest r.surface else s).modBank fun b =>
      { b with waiting := b.waiting.set r.surface (some r) } := by
  have late : (decide (r.surface = .s0) && s.liesBefore r.expiry) = s.arrivesLate r := (Bool.decide_and _ _).symm
  unfold State.requestArrives
  dsimp only
  rw [late]

end

/-- A request arrives: what becomes of it, and what NOTICE says of it. -/
theorem State.requestArrives_spec (s : State) (r : BankRequest) :
    ∃ n, let t : State := { s.arriving r with notice := n }
    LossNotes s t ∧ s.requestArrives r = t := by
  rw [State.requestArrives_eq]
  by_cases parked : s.bank.mode = .parked
  · have guard : s.arrivesLate r = true ∧ ¬ (s.bank.mode = .parked ∧ s.bank.surface = .s0) ↔
        s.arrivesLate r = true ∧ s.bank.surface ≠ .s0 := by simp only [parked, true_and, ne_eq]
    simp only [guard]
    rw [State.arriving_parked parked]
    by_cases late : s.arrivesLate r = true ∧ s.bank.surface ≠ .s0
    · rw [if_pos late, if_pos late]
      exact s.loseRequest_spec r.surface
    · rw [if_neg late, if_neg late, if_pos parked]
      obtain ⟨n, losses, granted⟩ := s.grant_spec r
      rw [granted]
      dsimp only
      by_cases again : (s.granting r).bank.mode = .parked
      · obtain ⟨m, served, freed⟩ := State.freeBank_spec { s.granting r with notice := n }
        rw [State.freed_notice] at served freed
        rw [if_pos (decide_eq_true again), if_pos again, freed]
        exact ⟨m, losses.trans served, rfl⟩
      · rw [if_neg again, if_neg (decide_eq_true_iff.not.2 again)]
        exact ⟨n, losses, rfl⟩
  · have guard : s.arrivesLate r = true ∧ ¬ (s.bank.mode = .parked ∧ s.bank.surface = .s0) ↔
        s.arrivesLate r = true := by simp only [parked, false_and, not_false_eq_true, and_true]
    simp only [guard]
    rw [State.arriving_busy parked]
    by_cases late : s.arrivesLate r = true
    · rw [if_pos late, if_pos late]
      exact s.loseRequest_spec r.surface
    · rw [if_neg late, if_neg late, if_neg parked]
      dsimp only
      by_cases waits : (s.bank.waiting.get r.surface).isSome = true
      · rw [if_pos waits, if_pos waits]
        obtain ⟨n, losses, lost⟩ := s.loseRequest_spec r.surface
        rw [lost]
        exact ⟨n, losses.withBank _, rfl⟩
      · rw [if_neg waits, if_neg waits]
        exact ⟨s.notice, (LossNotes.refl s).withBank _, rfl⟩

theorem State.arriving_notice (s : State) (r : BankRequest) (n : Notices) :
    { s with notice := n }.arriving r = { s.arriving r with notice := n } := by
  have late : State.arrivesLate { s with notice := n } r = s.arrivesLate r := rfl
  by_cases parked : s.bank.mode = .parked
  · rw [State.arriving_parked parked, State.arriving_parked (s := { s with notice := n }) parked,
      State.granting_notice, State.freed_notice, late]
    dsimp only
    split
    · rfl
    · split <;> rfl
  · rw [State.arriving_busy parked, State.arriving_busy (s := { s with notice := n }) parked, late]
    dsimp only
    split
    · rfl
    · split <;> rfl

end Sys2Proof.Machine
end

section
/-! PROOF. WINDOW_START (R89, R90, R127, R128, R134, R136). -/

namespace Sys2Proof.Machine

/-- Pipe 1 after a burst completion, in its WINDOW, with HOLD handed to its link. -/
def State.holding (s : State) (first count : Nat) (lw : Nat) : State :=
  let x := ((s.pipe .p1).burstEnded s.time first count).inNextSlot
  s.withPipe .p1 { x with lc := x.lc.plus s.time (.hold (BitVec.ofNat 32 lw)) false }

/-- The window request of a WINDOW slot, if surface 0 is enabled (R90). -/
def State.asking (s : State) (ends : Word) (ordinal : Nat) (noisy : Bool) : State :=
  if s.surfaces.s0.enabled then s.arriving (s.windowAsked ends ordinal noisy) else s

theorem State.asking_notice (s : State) (ends : Word) (ordinal : Nat) (noisy : Bool) (n : Notices) :
    { s with notice := n }.asking ends ordinal noisy = { s.asking ends ordinal noisy with notice := n } := by
  unfold State.asking
  dsimp only
  split
  · exact s.arriving_notice _ n
  · rfl

theorem State.raiseWindow_spec {s : State} {start len ordinal shift : Nat} {noisy : Bool}
    (slot : (s.pipe .p1).fr.currentSlot = some (.window start len ordinal shift noisy)) :
    ∃ n, let t : State :=
        { s.asking (tuAfter (s.pipe .p1).fr.frameStart (start + len)) ordinal noisy with notice := n }
      LossNotes s t ∧ s.raiseWindow = t := by
  have raises : s.raiseWindow = if s.surfaces.s0.enabled
      then s.requestArrives (s.windowAsked (tuAfter (s.pipe .p1).fr.frameStart (start + len)) ordinal noisy)
      else s := by
    unfold State.raiseWindow
    dsimp only
    rw [show s.pipes.p1.fr.currentSlot = _ from slot]
    rfl
  rw [raises]
  unfold State.asking
  by_cases enabled : s.surfaces.s0.enabled = true
  · rw [if_pos enabled, if_pos enabled]
    exact s.requestArrives_spec _
  · rw [if_neg enabled, if_neg enabled]
    exact ⟨s.notice, .refl s, rfl⟩

theorem State.asking_same (s : State) (ends : Word) (ordinal : Nat) (noisy : Bool) :
    (s.asking ends ordinal noisy).notice = s.notice :=
  congrArg (·.notice) (s.asking_notice ends ordinal noisy s.notice)

/-- A change of one pipe of which NOTICE has nothing to say, at the end of an event. -/
theorem Notes.steady {s t : State} (notes : Notes s t) {p : Pipe} {x : PipeState} (steady : (t.pipe p).Steady x) :
    Notes s (t.withPipe p x) := notes.trans (t.withPipe_notes steady) fun q => .inr (steady.withPipe q)

/-- The burst completion and the HOLD, before the window request. -/
theorem State.holdPanel_spec (s : State) (first count : Nat) {pl : Plan} (plan : (s.pipe .p1).fr.plan = some pl) :
    ∃ n, let t : State := { s.holding first count pl.lw with notice := n }
    Notes s t ∧ ((s.burstCompleted .p1 first count).1.nextSlot .p1).holdPanel = t := by
  obtain ⟨n, fields⟩ := s.burstCompleted_fields .p1 first count
  have notes := s.burstCompleted_notes .p1 first count
  have lw : (((s.pipe .p1).burstEnded s.time first count).fr.plan.map (·.lw)).getD 0 = pl.lw :=
    congrArg (fun x : Option Plan => (x.map (·.lw)).getD 0) plan
  rw [fields] at notes ⊢
  refine ⟨n, ?_, ?_⟩
  · exact notes.steady (p := .p1) (x := (s.holding first count pl.lw).pipe .p1) ⟨LinkCtl.plus_state .., rfl, rfl⟩
  · unfold State.holdPanel State.holding
    rw [State.sendMessage_eq, ← lw]
    rfl

/-- A WINDOW start, field by field. -/
theorem State.startWindow_eq {s : State} {a n first count start len ordinal shift : Nat} {noisy : Bool} {pl : Plan}
    (reaches : (s.pipe .p1).fr.reaches s.time (.burst a n first count) (.window start len ordinal shift noisy))
    (plan : (s.pipe .p1).fr.plan = some pl) :
    let ends := tuAfter (s.pipe .p1).fr.frameStart (start + len)
    ∃ q f, HandedOver s.rqi s.time [(s.pipe .p1).burstHands s.time first count] q ∧
      s.startWindow =
        { ((s.holding first count pl.lw).asking ends ordinal noisy).noted s with rqi := q, free := f } := by
  intro ends
  obtain ⟨slot, -⟩ := State.slotDue_of reaches
  have completed : s.slotCompleted .p1 s.pipes.p1.fr.currentSlot = s.burstCompleted .p1 first count := by
    rw [show s.pipes.p1.fr.currentSlot = _ from slot]
    rfl
  obtain ⟨m, notes, held⟩ := s.holdPanel_spec first count plan
  have window : (State.pipe { s.holding first count pl.lw with notice := m } .p1).fr.currentSlot =
      some (.window start len ordinal shift noisy) := by
    obtain ⟨pl, k, ⟨running, plan, position, -⟩, next, -⟩ := reaches
    exact Runner.currentSlot_of ⟨running, plan, congrArg (· + 1) position, next⟩
  obtain ⟨m', losses, asked⟩ := State.raiseWindow_spec window
  rw [State.asking_notice] at losses asked
  have noted := notes.eq_noted_losses (v := (s.holding first count pl.lw).asking ends ordinal noisy) losses rfl
    (State.asking_same ..)
  have left : s.startWindow =
      (((s.holding first count pl.lw).asking ends ordinal noisy).noted s).handOverGroups
        [(s.pipe .p1).burstHands s.time first count] := by
    unfold State.startWindow
    rw [completed]
    dsimp only
    rw [held, asked.trans noted, State.burstCompleted_hands]
    rfl
  obtain ⟨q, f, finished, handed⟩ := (((s.holding first count pl.lw).asking ends ordinal noisy).noted s)
    |>.handOverGroups_spec [(s.pipe .p1).burstHands s.time first count]
  have rqi : ((s.holding first count pl.lw).asking ends ordinal noisy).rqi = s.rqi := congrArg (·.rqi) losses.rest
  have time : ((s.holding first count pl.lw).asking ends ordinal noisy).time = s.time := congrArg (·.time) losses.rest
  refine ⟨q, f, ?_, left.trans finished⟩
  simpa only [State.noted, rqi, time] using handed

/-- Settles O34: the burst completion, HOLD and, by surface 0's enable, the request's arrival. -/
theorem windowStartAsksForTheBank : Obligations.WindowStartAsksForTheBank := by
  unfold Obligations.WindowStartAsksForTheBank
  intro s a n first count start len ordinal shift noisy pl z reaches plan x u ends
  obtain ⟨-, due⟩ := State.slotDue_of reaches
  obtain ⟨q, f, handed, left⟩ := State.startWindow_eq reaches plan
  have executed : exec .windowStart s = .next (publish s s.startWindow) := event_of due State.startWindow
  have versions := ((Within.refl Set.univ s).startWindow trivial trivial).versions
  have becomes : ∀ v, u.asking ends ordinal noisy = v → Becomes .windowStart s ({ v with rqi := q }.noted s) :=
    fun v hv => by
      have left : s.startWindow = { v.noted s with rqi := q, free := f } := hv ▸ left
      exact becomes_of_publish executed (by rw [left]; rfl) (fun _ => by rw [left]; rfl) versions
  exact ⟨q, handed, fun disabled => becomes _ (if_neg (Bool.eq_false_iff.1 disabled)),
    fun enabled => becomes _ (if_pos enabled)⟩

end Sys2Proof.Machine
end

section
/-! PROOF. PRESENCE_ABSENT and SILENCE_LIMIT: a silent reference and a silent source (R106, R113). -/

namespace Sys2Proof.Machine

theorem State.absenceDue_iff (s : State) : s.absenceDue = true ↔
    s.ref.source = .external ∧ s.ref.present = true ∧
      ∃ t, s.ref.lastPulse = some t ∧ tuAfter t (2 * s.ref.fref) = s.time := by
  unfold State.absenceDue
  rw [Bool.and_eq_true, Bool.and_eq_true, decide_eq_true_eq, State.isNow_iff, Option.map_eq_some_iff, and_assoc]

theorem LockCtl.following_iff (l : LockCtl) : l.following = true ↔ l.state = .seeking ∨ l.state = .locked :=
  decide_eq_true_iff

/-- The silence limit under each cadence that a lock follows. -/
theorem State.silenceLimitTU_eq_some {s : State} {p : Pipe} {c : Contract} (contract : (s.pipe p).pb.contract = some c)
    (n : Nat) : s.silenceLimitTU p = some n ↔
      c.cadence = .lockedRef ∧ 2 * s.ref.fref = n ∨ c.cadence = .lockedPeer ∧ 2 * c.f = n := by
  unfold State.silenceLimitTU
  rw [contract]
  dsimp only
  cases c.cadence <;> simp

theorem State.silenceDue_of {s : State} {p : Pipe} {c : Contract} {t : Word}
    (follows : (s.pipe p).lock.state = .seeking ∨ (s.pipe p).lock.state = .locked)
    (contract : (s.pipe p).pb.contract = some c) (start : (s.pipe p).lock.silenceStart = some t)
    (passed : c.cadence = .lockedRef ∧ 2 * s.ref.fref ≤ (s.time - t).toNat ∨
      c.cadence = .lockedPeer ∧ 2 * c.f ≤ (s.time - t).toNat) : s.silenceDue p = true := by
  obtain ⟨n, limit, late⟩ : ∃ n, s.silenceLimitTU p = some n ∧ n ≤ s.since t := by
    rcases passed with ⟨cadence, late⟩ | ⟨cadence, late⟩
    · exact ⟨_, (State.silenceLimitTU_eq_some contract _).2 (.inl ⟨cadence, rfl⟩), late⟩
    · exact ⟨_, (State.silenceLimitTU_eq_some contract _).2 (.inr ⟨cadence, rfl⟩), late⟩
  unfold State.silenceDue
  rw [(LockCtl.following_iff _).2 follows, start, limit]
  exact decide_eq_true late

/-- What a change of one pipe's lock and fault set sets in NOTICE is what `State.noted` says of it. -/
theorem State.relocked_noted (s : State) (p : Pipe) (r : LockCtl × List PipeFault) : s.relocked p r =
    (s.withPipe p { s.pipe p with lock := r.1, faults := (s.pipe p).faults.plus r.2 }).noted s := by
  refine Notes.eq_noted (.one p (fun q other => s.withPipe_other _ other) (fun _ => rfl) rfl rfl ?_ ?_) rfl rfl
  · rw [State.relocked_pipe]
    simp [State.relocked]
  · rw [State.relocked_pipe, ← PipeFaults.movedBy_iff]
    exact Bool.or_eq_true_iff

/-- Settles O38: each event is due at its instant, and its effect is the presence alone, or the loss of one pipe's
source. -/
theorem silentSourcesAreGivenUp : Obligations.SilentSourcesAreGivenUp := by
  unfold Obligations.SilentSourcesAreGivenUp
  intro s
  constructor
  · intro t external present last absent
    have due : s.absenceDue = true := s.absenceDue_iff.2 ⟨external, present, t, last, absent⟩
    exact becomes_of_publish (event_of due fun t => t.modRef fun r => { r with present := false }) rfl (fun _ => rfl)
      ⟨fun _ => rfl, fun _ => rfl, rfl, rfl⟩
  · intro p c t x follows contract start passed
    have executed : exec (.silenceLimit p) s = .next (publish s (s.loseSource p id)) :=
      event_of (State.silenceDue_of follows contract start passed) fun t => t.loseSource p id
    rw [State.loseSource_eq, State.relocked_noted] at executed
    exact becomes_of_publish executed rfl (fun _ => rfl) (State.withPipe_versions rfl)

end Sys2Proof.Machine
end

section
/-! PROOF. The phase measurement and the trim adjustment (R111, R112, R115). -/

namespace Sys2Proof.Machine

/-! The table of measurements (R112). -/

/-- The lock after a measurement, row by row of the table: SEEKING by the bound of 16, LOCKED by the bound of 64. -/
theorem LockCtl.measuredAt_table (l : LockCtl) (now : Word) (c : Contract) :
    let e := l.errorAt now c
    let same := { l with phaseError := e, measured := true }
    (l.measuredAt now c).1 =
      if l.state = .seeking ∧ e.natAbs ≤ 16 then
        if l.within + 1 = 4 then { same with state := .locked, within := 0, beyond := 0 }
        else { same with within := l.within + 1 }
      else if l.state = .seeking then { same with within := 0 }
      else if l.state = .locked ∧ e.natAbs ≤ 64 then { same with beyond := 0 }
      else if l.state = .locked then
        if l.beyond + 1 = 2 then { same with state := .seeking, within := 0, beyond := 0 }
        else { same with beyond := l.beyond + 1 }
      else same := by
  unfold LockCtl.measuredAt
  generalize l.errorAt now c = e
  cases state : l.state <;> dsimp only
  case seeking =>
    by_cases near : e.natAbs ≤ 16
    · by_cases fourth : l.within = 3 <;> simp [near, fourth, Nat.not_lt.2 near]
    · simp [near, Nat.lt_of_not_le near]
  case locked =>
    by_cases near : e.natAbs ≤ 64
    · simp [near]
    · by_cases second : l.beyond = 1 <;> simp [near, second]
  all_goals simp

/-- A measurement sets LOCK_LOST where it moves the lock from LOCKED to SEEKING, and no other fault. -/
theorem LockCtl.measuredAt_faults (l : LockCtl) (now : Word) (c : Contract) : (l.measuredAt now c).2 =
    if l.state = .locked ∧ (l.measuredAt now c).1.state = .seeking then [.lockLost] else [] := by
  rw [LockCtl.counted_lockLost, ← LockCtl.counted_measured]

/-- Settles O39: the lock and the fault set after a measurement are `LockCtl.measuredAt`, which is the table. -/
theorem measurementsMoveTheLock : Obligations.MeasurementsMoveTheLock := by
  unfold Obligations.MeasurementsMoveTheLock
  intro s p c l e t l' same
  have measured : t.pipe p = { s.pipe p with
      lock := (l.measuredAt s.time c).1, faults := (s.pipe p).faults.plus (l.measuredAt s.time c).2 } :=
    (congrArg (·.pipe p) (s.measureLock_eq p c)).trans (s.relocked_pipe p _)
  have lock : l' = (l.measuredAt s.time c).1 := congrArg (·.lock) measured
  refine ⟨lock.trans (l.measuredAt_table s.time c), ?_⟩
  rw [measured, lock, LockCtl.measuredAt_faults]
  split <;> rfl

/-! The phase error and the trim adjustment (R111, R115). -/

/-- The reduced phase differs from the raw one by whole frames. -/
theorem reducePhase_add_frames (f : Nat) (raw : Int) : ∃ k : Int, raw = reducePhase f raw + k * f := by
  refine ⟨(raw + ((f / 2 : Nat) : Int)) / f, ?_⟩
  have division := Int.emod_add_ediv_mul (raw + ((f / 2 : Nat) : Int)) f
  unfold reducePhase
  omega

/-- The reduced phase lies in the frame around 0. -/
theorem reducePhase_bounds {f : Nat} (pos : 0 < f) (raw : Int) :
    -((f / 2 : Nat) : Int) ≤ reducePhase f raw ∧ reducePhase f raw ≤ (f : Int) - ((f / 2 : Nat) : Int) - 1 := by
  have nonneg := Int.emod_nonneg (raw + ((f / 2 : Nat) : Int)) (show (f : Int) ≠ 0 by omega)
  have below := Int.emod_lt_of_pos (raw + ((f / 2 : Nat) : Int)) (show (0 : Int) < f by omega)
  unfold reducePhase
  omega

theorem clampTrim_bounds (trimMax : Nat) (e : Int) :
    -(trimMax : Int) ≤ clampTrim trimMax e ∧ clampTrim trimMax e ≤ trimMax := by
  unfold clampTrim
  omega

theorem LockCtl.adjustment_of_measured {l : LockCtl} (c : Contract) (follows : l.state = .seeking ∨ l.state = .locked)
    (measured : l.measured = true) : l.adjustment c =
      if (c.h : Int) + c.q + clampTrim c.trimMax l.phaseError < c.hmin then (c.hmin : Int) - c.h - c.q
      else clampTrim c.trimMax l.phaseError :=
  if_pos ⟨l.following_iff.2 follows, measured⟩

theorem LockCtl.adjustment_of_not_measured {l : LockCtl} (c : Contract)
    (free : ¬ ((l.state = .seeking ∨ l.state = .locked) ∧ l.measured = true)) : l.adjustment c = 0 :=
  if_neg fun measured => free (measured.imp_left l.following_iff.1)

/-- With lines of at least Hmin, raising a clamped adjustment to Hmin takes it nearer to 0 and no further. -/
theorem LockCtl.adjustment_bounds {c : Contract} (least : c.hmin ≤ c.h) (l : LockCtl) :
    (l.adjustment c).natAbs ≤ c.trimMax ∧ (c.hmin : Int) ≤ c.h + c.q + l.adjustment c := by
  by_cases measured : (l.state = .seeking ∨ l.state = .locked) ∧ l.measured = true
  · obtain ⟨low, high⟩ := clampTrim_bounds c.trimMax l.phaseError
    rw [LockCtl.adjustment_of_measured c measured.1 measured.2]
    split <;> omega
  · rw [LockCtl.adjustment_of_not_measured c measured]
    omega

/-- Settles O40: the bounds of the reduction by F, and of the adjustment in each of its cases. -/
theorem trimFollowsThePhaseError : Obligations.TrimFollowsThePhaseError := by
  unfold Obligations.TrimFollowsThePhaseError
  intro l c now pulse pos least raw e half
  obtain ⟨low, high⟩ := reducePhase_bounds pos raw
  obtain ⟨most, line⟩ := l.adjustment_bounds least
  exact ⟨reducePhase_add_frames c.f raw, low, high, LockCtl.adjustment_of_not_measured c,
    LockCtl.adjustment_of_measured c, most, line⟩

end Sys2Proof.Machine
end

section
/-! PROOF. What NOTICE says of the surfaces' events in parts, and what the arbiter and the assemblers leave aside (R136,
R141, R154, R161, R177). -/

namespace Sys2Proof.Machine

/-! NOTICE after the faults of surfaces. -/

/-- What leads from `s` to `t` leaves the pipes alone, and NOTICE says what became of the surfaces' fault sets, in which
no flag is cleared. -/
structure FaultNotes (s t : State) : Prop where
  notice : t.notice = { s.notice with fault := t.notice.fault }
  pipes  : t.pipes = s.pipes
  fault  : t.notice.fault = true ↔ s.notice.fault = true ∨ ∃ k, (t.surf k).faults ≠ (s.surf k).faults
  kept   : ∀ k f, (s.surf k).faults.get f = true → (t.surf k).faults.get f = true

theorem LossNotes.toFaultNotes {s t : State} (h : LossNotes s t) : FaultNotes s t :=
  ⟨congrArg (·.notice) h.rest, congrArg (·.pipes) h.rest, h.fault, h.kept⟩

theorem exists_surface {P : Surface → Prop} : (∃ k, P k) ↔ P .s0 ∨ P .s1 :=
  ⟨fun ⟨k, h⟩ => by cases k <;> [exact .inl h; exact .inr h], fun h => h.elim (⟨_, ·⟩) (⟨_, ·⟩)⟩

/-- What a new surface shares with the old one, every surface keeps. -/
theorem State.withSurf_keeps {α : Type} (g : SurfaceState → α) {s : State} {k : Surface} {x : SurfaceState}
    (same : g x = g (s.surf k)) (f : Surface) : g ((s.withSurf k x).surf f) = g (s.surf f) := by
  by_cases own : f = k
  · subst own
    exact (congrArg g (PerSurface.get_set ..)).trans same
  · exact congrArg g (PerSurface.get_set_ne _ own _)

namespace FaultNotes
variable {s t u v : State}

/-- Nothing to say, and nothing said. -/
theorem quiet (notice : t.notice = s.notice) (pipes : t.pipes = s.pipes)
    (faults : ∀ k, (t.surf k).faults = (s.surf k).faults) : FaultNotes s t where
  notice := by rw [notice]
  pipes := pipes
  fault := by
    rw [notice]
    exact ⟨.inl, fun h => h.elim id fun ⟨k, changed⟩ => absurd (faults k) changed⟩
  kept k f h := faults k ▸ h

theorem refl (s : State) : FaultNotes s s := quiet rfl rfl fun _ => rfl

theorem trans (h : FaultNotes s t) (h' : FaultNotes t u) : FaultNotes s u where
  notice := by rw [h'.notice, h.notice]
  pipes := h'.pipes.trans h.pipes
  fault := by
    rw [h'.fault, h.fault, or_assoc, ← exists_or]
    exact or_congr_right (exists_congr fun k => SurfaceFaults.changed_iff (h.kept k) (h'.kept k))
  kept k f := h'.kept k f ∘ h.kept k f

/-- A change that leaves NOTICE, the pipes and the surfaces alone. -/
theorem same (h : FaultNotes s t) (notice : u.notice = t.notice) (pipes : u.pipes = t.pipes)
    (surfaces : u.surfaces = t.surfaces) : FaultNotes s u :=
  h.trans (.quiet notice pipes fun k => by simp only [State.surf, surfaces])

theorem withSurf (h : FaultNotes s t) {k : Surface} {x : SurfaceState} (kept : x.faults = (t.surf k).faults) :
    FaultNotes s (t.withSurf k x) := h.trans (.quiet rfl rfl (State.withSurf_keeps (·.faults) kept))

/-- A fault of a surface (R177). -/
theorem raiseSurfaceFault (h : FaultNotes s t) (k : Surface) (f : SurfaceFault) :
    FaultNotes s (t.raiseSurfaceFault k f) := by
  have own : ((t.raiseSurfaceFault k f).surf k).faults = (t.surf k).faults.put f := by
    rw [State.raiseSurfaceFault_eq]
    cases k <;> rfl
  have other : ∀ g, g ≠ k → (t.raiseSurfaceFault k f).surf g = t.surf g := fun g ne => by
    rw [State.raiseSurfaceFault_eq]
    exact PerSurface.get_set_ne _ ne _
  have changed : (∃ g, ((t.raiseSurfaceFault k f).surf g).faults ≠ (t.surf g).faults) ↔
      (t.surf k).faults.get f = false := by
    rw [← SurfaceFaults.put_ne, ← own]
    refine ⟨fun ⟨g, h⟩ => ?_, fun h => ⟨k, h⟩⟩
    by_cases hg : g = k
    · exact hg ▸ h
    · exact absurd (congrArg (·.faults) (other g hg)) h
  refine h.trans ⟨?_, ?_, ?_, fun g x hx => ?_⟩
  · rw [State.raiseSurfaceFault_eq]
  · rw [State.raiseSurfaceFault_eq]
    rfl
  · rw [changed, ← Bool.not_eq_true', State.raiseSurfaceFault_eq]
    exact Bool.or_eq_true_iff
  · by_cases hg : g = k
    · subst hg
      rw [own, SurfaceFaults.get_put, hx, Bool.or_true]
    · rwa [other g hg]

/-- An event whose fields are those of `v`, where NOTICE stands in `v` as it stood after the first part of the event. -/
theorem eq_noted (first : FaultNotes s t) (second : FaultNotes t u) (fields : u = { v with notice := u.notice })
    (before : v.notice = t.notice) : u = v.noted s := by
  have whole := first.trans second
  have pipes : ∀ p, v.pipe p = s.pipe p := fun p => by
    rw [show v.pipe p = u.pipe p by rw [fields]; rfl]
    exact congrArg (·.get p) whole.pipes
  have surfaces : ∀ k, u.surf k = v.surf k := fun k => by rw [fields]; rfl
  have risen : v.notice.fault = true → u.notice.fault = true := fun h =>
    second.fault.2 (.inl (before ▸ h))
  have started : s.notice.fault = true → v.notice.fault = true := fun h => before ▸ first.fault.2 (.inl h)
  have same : u.notice = (v.noted s).notice := by
    refine Notices.mk.injEq .. |>.mpr ⟨?_, ?_, ?_, ?_⟩
    · exact (congrArg (·.cell) second.notice).trans (congrArg (·.cell) before.symm)
    · exact (congrArg (·.report) second.notice).trans (congrArg (·.report) before.symm)
    · have kept : u.notice.pipe = v.notice.pipe :=
        (congrArg (·.pipe) second.notice).trans (congrArg (·.pipe) before.symm)
      simp [kept, pipes]
    · have flagged := whole.fault
      simp only [exists_surface, surfaces] at flagged
      rw [Bool.eq_iff_iff, pipes, pipes]
      simp only [Bool.or_eq_true, decide_eq_true_eq, ne_eq, not_true, false_or]
      exact ⟨fun h => (flagged.1 h).imp_left started, fun h => h.elim risen (flagged.2 ∘ .inr)⟩
  rw [fields, same]
  rfl

end FaultNotes

/-! The pad timer and the count of free values, which the arbiter and the assemblers neither read nor write. -/

/-- A state with its pad timer and its count of free values replaced. -/
def State.aside (s : State) (q : PadTimer) (n : Nat) : State := { s with pct := q, free := n }

section

variable (s : State) (q : PadTimer) (n : Nat)

theorem State.aside_ite (c : Prop) [Decidable c] (t u : State) :
    (if c then t else u).aside q n = if c then t.aside q n else u.aside q n :=
  apply_ite (fun x : State => x.aside q n) ..

theorem State.granting_aside (r : BankRequest) : (s.aside q n).granting r = (s.granting r).aside q n := by
  unfold State.granting
  dsimp only
  rw [State.aside_ite, State.aside_ite]
  rfl

theorem State.grantsNext_aside : (s.aside q n).grantsNext = s.grantsNext.aside q n := by
  unfold State.grantsNext
  dsimp only [State.aside]
  cases s.bank.chosen with
  | none => rfl
  | some r => exact (s.unwait r.surface).granting_aside q n r

theorem State.freed_aside : (s.aside q n).freed = s.freed.aside q n := by
  unfold State.freed
  rw [State.grantsNext_aside]
  dsimp only
  rw [State.grantsNext_aside, State.aside_ite]
  rfl

theorem State.arriving_aside (r : BankRequest) : (s.aside q n).arriving r = (s.arriving r).aside q n := by
  by_cases parked : s.bank.mode = .parked
  · rw [State.arriving_parked parked, State.arriving_parked (s := s.aside q n) parked, State.granting_aside,
      State.freed_aside, State.aside_ite, State.aside_ite]
    rfl
  · rw [State.arriving_busy parked, State.arriving_busy (s := s.aside q n) parked]
    dsimp only
    rw [State.aside_ite]
    by_cases waits : (s.bank.waiting.get r.surface).isSome = true
    · rw [if_pos waits, if_pos (show ((s.aside q n).bank.waiting.get r.surface).isSome = true from waits)]
      rfl
    · rw [if_neg waits, if_neg (show ¬ ((s.aside q n).bank.waiting.get r.surface).isSome = true from waits)]
      rfl

end

end Sys2Proof.Machine
end

section
/-! PROOF. PAD_TICK, REQUEST_EXPIRY and RETUNE_END (R135 to R144, R154, R159). -/

namespace Sys2Proof.Machine

/-- An event that falls due and is published. -/
theorem becomes_of_event {c : Instr} {guard : Bool} {f : State → State} {s u : State}
    (executed : exec c s = event guard f s) (due : guard = true) (ends : f s = u) (within : Within Set.univ s (f s)) :
    Becomes c s u :=
  becomes_of_publish (executed.trans (event_of due f)) (congrArg _ ends) (fun a => congrArg (·.mem.read a) ends)
    within.versions

theorem State.freed_same (s : State) : s.freed.notice = s.notice := congrArg (·.notice) (s.freed_notice s.notice)

theorem State.arriving_same (s : State) (r : BankRequest) : (s.arriving r).notice = s.notice :=
  congrArg (·.notice) (s.arriving_notice r s.notice)

/-- The bank is freed at the end of an event whose fields are those of `v`. -/
theorem State.freeBank_noted {s m t v : State} (first : FaultNotes s m) (second : FaultNotes m t)
    (fields : t = { v with notice := t.notice }) (before : v.notice = m.notice) : t.freeBank = v.freed.noted s := by
  obtain ⟨n, losses, freed⟩ := t.freeBank_spec
  have ends : t.freed = { v.freed with notice := t.notice } := by
    conv_lhs => rw [fields]
    exact v.freed_notice t.notice
  rw [ends] at losses freed
  rw [freed]
  exact first.eq_noted (second.trans losses.toFaultNotes) rfl (v.freed_same.trans before)

/-! The pad tick (R154). -/

theorem State.tickPad_spec (s : State) : ∃ n, let t : State := { s.ticking with notice := n }
    FaultNotes s t ∧ s.tickPad = t := by
  let counted := s.aside { s.pct with tickCount := s.pct.tickCount + 1 } s.free
  let r := s.padRequest (s.pct.tickCount + 1)
  obtain ⟨n, losses, arrived⟩ := counted.requestArrives_spec r
  have aside : counted.arriving r = (s.arriving r).aside _ s.free := s.arriving_aside _ _ r
  rw [aside] at losses arrived
  have free : (s.arriving r).free = s.free := congrArg (·.free) (s.arriving_aside s.pct s.free r)
  have ticked : s.tickPad = { counted.requestArrives r with
      pct := { (counted.requestArrives r).pct with nextTick := some (s.after (s.surf .s1).geo.padInterval) } } := rfl
  obtain ⟨notice, pipes, fault, kept⟩ := losses.toFaultNotes
  refine ⟨n, ⟨notice, pipes, fault, kept⟩, ?_⟩
  rw [ticked, arrived]
  exact congrArg (fun m : Nat => { s.ticking with notice := n, free := m }) free.symm

/-- A pad tick in an event of which NOTICE has had nothing to say. -/
theorem State.tickPad_noted {s t : State} (notes : FaultNotes s t) (before : t.notice = s.notice) :
    t.tickPad = t.ticking.noted s := by
  obtain ⟨n, ticks, ticked⟩ := t.tickPad_spec
  rw [ticked]
  exact (FaultNotes.refl s).eq_noted (notes.trans ticks) rfl ((t.arriving_same _).trans before)

theorem State.expireRequest_noted (s : State) (k : Surface) : s.expireRequest k = ((s.unwait k).losing k).noted s := by
  obtain ⟨n, losses, lost⟩ := (s.unwait k).loseRequest_spec k
  exact lost.trans ((FaultNotes.refl s).eq_noted losses.afterBank.toFaultNotes rfl rfl)

/-- Settles O41: the tick's request arrives at the arbiter, and an expired request is withdrawn and lost. -/
theorem padRequestsArriveAndExpire : Obligations.PadRequestsArriveAndExpire := by
  unfold Obligations.PadRequestsArriveAndExpire
  intro s
  have start := Within.refl Set.univ s
  refine ⟨fun running next => ?_, fun k r waits expires => ?_⟩
  · have due : s.tickDue = true := Bool.and_eq_true_iff.2 ⟨running, decide_eq_true next⟩
    exact becomes_of_event rfl due (State.tickPad_noted (.refl s) rfl) (start.tickPad trivial)
  · have due : s.expiryDue k = true := decide_eq_true (by rw [waits, ← expires]; rfl)
    exact becomes_of_event (f := fun t => t.expireRequest k) rfl due (s.expireRequest_noted k)
      (Within.loseRequest (start.modBank trivial _) trivial k)

/-! The end of a retune (R138, R139, R141). -/

theorem State.startScan_rows {s : State} {r : BankRequest} (rows : s.scanRowCount r ≠ 0) : s.startScan r =
    ({ s with bank := s.bank.scanning r r.surface s.time (s.scanRowCount r) (s.surf r.surface).geo.rowTime }, false) :=
  if_neg rows

/-- A granted request for whose scan no row fits is lost, and the bank parks on its surface. -/
theorem State.startScan_short {s : State} {r : BankRequest} (own : r.surface = s.bank.surface)
    (short : s.scanRowCount r = 0) :
    ∃ n, let t : State :=
        { State.losing { s with bank := { s.bank with mode := .parked, granted := none } } r.surface with notice := n }
      FaultNotes s t ∧ s.startScan r = (t, true) := by
  obtain ⟨n, losses, lost⟩ := s.loseRequest_spec r.surface
  refine ⟨n, (losses.withBank _).toFaultNotes, (if_pos short).trans ?_⟩
  rw [lost, own]
  rfl

theorem State.endRetune_rows {s : State} {r : BankRequest} (granted : s.bank.granted = some r)
    (rows : s.scanRowCount r ≠ 0) : s.endRetune =
      { s with bank := s.bank.scanning r r.surface s.time (s.scanRowCount r) (s.surf r.surface).geo.rowTime } := by
  unfold State.endRetune
  rw [granted]
  dsimp only
  rw [State.startScan_rows rows]
  rfl

theorem State.endRetune_short {s : State} {r : BankRequest} (granted : s.bank.granted = some r)
    (own : r.surface = s.bank.surface) (short : s.scanRowCount r = 0) :
    s.endRetune = (State.freed (State.losing
      { s with bank := { s.bank with mode := .parked, granted := none } } r.surface)).noted s := by
  obtain ⟨n, notes, lost⟩ := State.startScan_short own short
  unfold State.endRetune
  rw [granted]
  dsimp only
  rw [lost]
  exact State.freeBank_noted (.refl s) notes rfl rfl

theorem State.endRetune_none {s : State} (granted : s.bank.granted = none) : s.endRetune =
    (State.freed { s with bank := { s.bank with mode := .parked } }).noted s := by
  unfold State.endRetune
  rw [granted]
  exact State.freeBank_noted (.refl s) (.quiet rfl rfl fun _ => rfl) rfl rfl

theorem State.scanRowCount_window (s : State) (expiry ends : Word) (low : Byte) (ordinal : Nat) (noisy : Bool) :
    s.scanRowCount { expiry := expiry, particulars := .window ends low ordinal noisy } = s.windowRows ends := by
  have past : s.liesBefore ends = true ↔ ¬ (ends - s.time).toNat < 2 ^ 31 := by
    unfold State.liesBefore
    rw [decide_eq_true_iff, Nat.not_lt]
  exact (if_congr past rfl rfl).trans (ite_not ..)

/-- A scan of surface 0 ends at or before its window. -/
theorem State.windowRows_fit {s : State} {ends : Word} (rows : 0 < s.windowRows ends) :
    s.windowRows ends * s.surfaces.s0.geo.rowTime ≤ (ends - s.time).toNat ∧ (ends - s.time).toNat < 2 ^ 31 := by
  unfold State.windowRows at rows ⊢
  split at rows
  next ahead =>
    rw [if_pos ahead]
    exact ⟨Nat.div_mul_le_self .., ahead⟩
  next => exact absurd rows (Nat.lt_irrefl 0)

/-- Settles O42: by the granted request and its row count. -/
theorem retunesEndInAScan : Obligations.RetunesEndInAScan := by
  unfold Obligations.RetunesEndInAScan
  refine ⟨fun s safe retuning ends => ?_, ?_⟩
  · obtain ⟨own, -⟩ := safe
    have due : s.retuneDue = true := decide_eq_true ⟨retuning, ends⟩
    have becomes : ∀ u, s.endRetune = u → Becomes .retuneEnd s u := fun u ended =>
      becomes_of_event rfl due ended (Within.endRetune (.refl _ s) trivial)
    exact ⟨fun r granted => ⟨fun rows => becomes _ (State.endRetune_rows granted rows),
      fun short => becomes _ (State.endRetune_short granted (own r granted) short)⟩,
      fun granted => becomes _ (State.endRetune_none granted)⟩
  · intro s ends expiry low ordinal noisy tick n
    have rows : n = s.windowRows ends := s.scanRowCount_window expiry ends low ordinal noisy
    refine ⟨rows, rfl, fun fits => ?_⟩
    rw [rows] at fits ⊢
    exact State.windowRows_fit fits

end Sys2Proof.Machine
end

section
/-! PROOF. SET_SURFACE and SURFACE_ENABLE (R145, R150 to R155, R163). -/

namespace Sys2Proof.Machine

/-! SET_SURFACE (R150, R151, R155). -/

theorem RequestRecord.setSurfaceArgs_ok {r : RequestRecord} {k : Surface} (items : allPass (r.surfaceItems k)) :
    r.setSurfaceArgs k = .ok (r.geometryRead k) := by
  unfold RequestRecord.setSurfaceArgs
  cases k with
  | s0 =>
    simp only [allPass, RequestRecord.surfaceItems, RequestRecord.geometryRead, List.forall_mem_cons,
      within_eq_true] at items
    obtain ⟨rows, cols, nodes, rowTime, -⟩ := items
    dsimp only
    rw [if_neg (by omega), if_neg (by omega), if_neg (by omega), if_neg (by omega)]
    rfl
  | s1 =>
    simp only [allPass, RequestRecord.surfaceItems, RequestRecord.geometryRead, List.forall_mem_cons, within_eq_true,
      if_true] at items
    obtain ⟨rows, cols, nodes, rowTime, interval, window, slack, -⟩ := items
    dsimp only
    rw [if_neg (by omega), if_neg (by omega), if_neg (by omega), if_neg (by omega), if_neg (by omega),
      if_neg (by omega), if_neg (by omega)]
    rfl

/-- The abort of a surface's scan: what becomes of the bank, and what NOTICE says of it. -/
theorem State.abortScan_spec (s : State) (k : Surface) : ∃ n, let t : State := { s.scanAborted k with notice := n }
    LossNotes s t ∧ s.abortScan k = t := by
  unfold State.abortScan State.scanAborted
  by_cases scans : s.bank.mode = .scanning ∧ s.bank.surface = k
  · obtain ⟨n, losses, freed⟩ := (s.modBank fun b => { b with mode := .parked, granted := none }).freeBank_spec
    rw [if_pos scans, if_pos (show s.bank.scansFor k = true from decide_eq_true scans)]
    exact ⟨n, losses.afterBank, freed⟩
  · rw [if_neg scans, if_neg (show ¬ s.bank.scansFor k = true from decide_eq_true_iff.not.2 scans)]
    exact ⟨s.notice, .refl s, rfl⟩

theorem State.scanAborted_same (s : State) (k : Surface) : (s.scanAborted k).notice = s.notice := by
  unfold State.scanAborted
  split
  · exact State.freed_same _
  · rfl

/-- The pad timer after a new geometry (R155). -/
def PadTimer.respaced (x : PadTimer) (k : Surface) (next : Word) : PadTimer :=
  if k = .s1 ∧ x.running = true then { x with nextTick := some next } else x

theorem PadTimer.respaced_running {x : PadTimer} {next : Word} (running : x.running = true) :
    x.respaced .s1 next = { x with nextTick := some next } := if_pos ⟨rfl, running⟩

theorem PadTimer.respaced_still {x : PadTimer} {next : Word} (still : ¬ x.running = true) : x.respaced .s1 next = x :=
  if_neg fun h => still h.2

theorem State.setGeometry_respaced {u t : State} {k : Surface} {geo : Geometry}
    (abandoned : ((u.withSurf k { u.surf k with geo := geo }).abortScan k).abandonFrame k = t) (timer : t.pct = u.pct) :
    u.setGeometry k geo = { t with pct := u.pct.respaced k (tuAfter u.time geo.padInterval) } := by
  subst abandoned
  rw [← timer]
  cases k with
  | s0 => rfl
  | s1 =>
    by_cases running : (((u.withSurf .s1 { u.surf .s1 with geo := geo }).abortScan .s1).abandonFrame .s1).pct.running
    · rw [PadTimer.respaced_running running]
      exact if_pos running
    · rw [PadTimer.respaced_still running]
      exact if_neg running

/-- A new geometry, field by field, in an event of which NOTICE has had nothing to say. -/
theorem State.setGeometry_noted {s u : State} (notes : FaultNotes s u) (before : u.notice = s.notice) (k : Surface)
    (geo : Geometry) :
    let v := (u.withSurf k { u.surf k with geo := geo }).scanAborted k
    u.setGeometry k geo =
      ({ v.withSurf k (v.surf k).abandoned with
          pct := u.pct.respaced k (tuAfter u.time geo.padInterval) }).noted s := by
  intro v
  obtain ⟨n, losses, aborted⟩ := (u.withSurf k { u.surf k with geo := geo }).abortScan_spec k
  have geometry : FaultNotes s (u.withSurf k { u.surf k with geo := geo }) := notes.withSurf rfl
  have kept := (geometry.trans losses.toFaultNotes).withSurf (k := k) (x := (v.surf k).abandoned) rfl
  rw [State.setGeometry_respaced (congrArg (·.abandonFrame k) aborted) (congrArg (·.pct) losses.rest)]
  exact (FaultNotes.refl s).eq_noted (kept.same rfl rfl rfl) rfl
    ((State.scanAborted_same _ k).trans before)

theorem State.answer_notes (s : State) (r : RequestRecord) (status : Status) (item : Option Nat) (results : List Word) :
    FaultNotes s (s.answer r status item results) := .quiet rfl rfl fun _ => rfl

theorem State.answer_within (s : State) (r : RequestRecord) (status : Status) (item : Option Nat)
    (results : List Word) : Within Set.univ s (s.answer r status item results) := (Within.refl _ s).same rfl

/-- The decision instant of a request, by what it touches. -/
theorem becomes_of_decided {c : Instr} {kind : Nat} {f : State → RequestRecord → State} {s u : State}
    {r : RequestRecord} (executed : exec c s = decision kind f s) (h : s.takes kind r) (decided : f s r = u)
    (within : Within Set.univ s (f s r)) : Becomes c s u :=
  becomes_of_decision executed h decided (decided ▸ within.versions)

/-- Settles O20: the scan ends and the bank is freed under the new geometry, then the frame and the tick. -/
theorem setSurfaceReplacesTheGeometry : Obligations.SetSurfaceReplacesTheGeometry := by
  unfold Obligations.SetSurfaceReplacesTheGeometry
  intro s r k _ h target items u v w pct
  have decided : s.decideSetSurface r = (s.answer r .done none []).setGeometry k (r.geometryRead k) := by
    unfold State.decideSetSurface
    rw [RequestRecord.surfaceTarget_of target]
    dsimp only
    rw [RequestRecord.setSurfaceArgs_ok items]
    rfl
  have timer : s.pct.respaced k (tuAfter s.time (r.geometryRead k).padInterval) = pct := by
    cases k <;> rfl
  have within := (s.answer_within r .done none []).setGeometry trivial k (r.geometryRead k)
  refine becomes_of_decided rfl h (decided.trans ?_) (decided ▸ within)
  rw [State.setGeometry_noted (s.answer_notes r .done none []) rfl k, ← timer]
  rfl

/-! SURFACE_ENABLE (R152 to R155). -/

theorem RequestRecord.enableArg_ok {r : RequestRecord} (items : allPass [within (r.u8 0x20) 0 1]) :
    r.enableArg = .ok (decide (r.u8 0x20 = 1)) := by
  have range := within_eq_true.1 (items _ (List.mem_singleton.2 rfl))
  unfold RequestRecord.enableArg
  obtain off | on : r.u8 0x20 = 0 ∨ r.u8 0x20 = 1 := by omega
  · rw [if_pos off, off]
    rfl
  · rw [if_neg (by omega), if_pos on, on]
    rfl

theorem State.decideSurfaceEnable_eq (s : State) {r : RequestRecord} {k : Surface} (target : r.targetsSurface k)
    (items : allPass [within (r.u8 0x20) 0 1]) : s.decideSurfaceEnable r =
      match (s.surf k).enabled, decide (r.u8 0x20 = 1) with
      | false, true => (s.answer r .done none []).turnOn k
      | true, false => (s.answer r .done none []).turnOff k
      | true, true => s.answer r .done none []
      | false, false => s.answer r .done none [] := by
  unfold State.decideSurfaceEnable
  rw [RequestRecord.surfaceTarget_of target]
  dsimp only
  rw [RequestRecord.enableArg_ok items]
  rfl

/-- Surface 1 turned on makes its first tick (R154). -/
theorem State.turnOn_pads {s u : State} (notes : FaultNotes s u) (before : u.notice = s.notice) : u.turnOn .s1 =
    (State.ticking { u.withSurf .s1 { u.surf .s1 with enabled := true } with
      pct := { u.pct with running := true, tickCount := 0 } }).noted s := by
  have enabled := notes.withSurf (k := .s1) (x := { u.surf .s1 with enabled := true }) rfl
  exact State.tickPad_noted (enabled.same rfl rfl rfl) before

/-- A surface turned off, before its pad timer stops (R145, R153, R155). -/
theorem State.turnedOff_eq {s : State} (safe : s.bankSafe) (k : Surface) :
    ((s.modSurf k fun x => { x with enabled := false }).endBankUse k).abandonFrame k =
      { s.withSurf k { (s.surf k).abandoned with enabled := false } with bank := s.bank.without k s.time } := by
  rw [State.endBankUse_eq (s := s.modSurf k fun x => { x with enabled := false }) safe k]
  cases k <;> rfl

/-- Settles O21: by the surface's state and the byte. -/
theorem surfaceEnableSwitchesTheSurface : Obligations.SurfaceEnableSwitchesTheSurface := by
  unfold Obligations.SurfaceEnableSwitchesTheSurface
  intro s r k safe h target items u x
  have decided := s.decideSurfaceEnable_eq target items
  have answered := s.answer_within r .done none []
  refine ⟨fun same => ?_, fun off asked => ?_, fun on asked => ?_⟩
  · refine becomes_answer rfl h (decided.trans ?_)
    rw [← same]
    dsimp only [x]
    cases (s.surf k).enabled <;> rfl
  · have turned : s.decideSurfaceEnable r = u.turnOn k := by
      rw [decided, show (s.surf k).enabled = false from off, asked]
      rfl
    have becomes : ∀ v, u.turnOn k = v → Becomes .surfaceEnable s v := fun v hv =>
      becomes_of_decided rfl h (turned.trans hv) (turned ▸ answered.turnOn trivial k)
    refine ⟨?_, ?_⟩
    · rintro rfl
      exact becomes _ rfl
    · rintro rfl
      exact becomes _ (State.turnOn_pads (s.answer_notes r .done none []) rfl)
  · have turned : s.decideSurfaceEnable r = u.turnOff k := by
      rw [decided, show (s.surf k).enabled = true from on, asked]
      rfl
    have ended := State.turnedOff_eq (s := u) safe k
    have becomes : ∀ v, u.turnOff k = v → Becomes .surfaceEnable s v := fun v hv =>
      becomes_of_decided rfl h (turned.trans hv) (turned ▸ answered.turnOff trivial k)
    refine ⟨?_, ?_⟩
    · rintro rfl
      exact becomes _ ended
    · rintro rfl
      refine becomes _ ?_
      unfold State.turnOff
      rw [ended]
      rfl

end Sys2Proof.Machine
end

section
/-! PROOF. SET_BANK, SET_EVENT_PINS and CLEAR_FAULTS (R142, R178, R180, R181, 12.3). -/

namespace Sys2Proof.Machine

/-! SET_EVENT_PINS (R180, R181). -/

/-- An entry that passes its check is the source the record names. -/
theorem RequestRecord.pinEntry_eq {r : RequestRecord} {k : Nat} (passes : r.pinOk k = true) :
    r.pinEntry k = some (r.pinRead k) := by
  rw [← RequestRecord.pinEntry_isSome] at passes
  unfold RequestRecord.pinEntry RequestRecord.pinRead at *
  generalize r.u8 (0x20 + 2 * (k - 1)) = code at *
  generalize r.u8 (0x21 + 2 * (k - 1)) = selector at *
  have twoPipes : ∀ {f : Pipe → PinSource}, ((pipeOfSelector selector).map f).isSome = true →
      (pipeOfSelector selector).map f = some (f (if decide (selector = 1) then .p1 else .p0)) := fun {f} h => by
    match selector with
    | 0 | 1 => rfl
    | n + 2 => exact nomatch h
  have twoSurfaces : ∀ {f : Surface → PinSource}, ((surfaceOfSelector selector).map f).isSome = true →
      (surfaceOfSelector selector).map f = some (f (if decide (selector = 1) then .s1 else .s0)) := fun {f} h => by
    match selector with
    | 0 | 1 => rfl
    | n + 2 => exact nomatch h
  match code with
  | 0 | 2 | 5 | 6 | 7 => rfl
  | 1 | 4 => exact twoPipes passes
  | 3 => exact twoSurfaces passes
  | n + 8 => exact nomatch passes

theorem RequestRecord.pinArgs_ok {r : RequestRecord} (items : allPass r.pinItems) :
    r.pinArgs = .ok ((List.range 4).map fun j => r.pinRead (1 + j)) := by
  simp only [allPass, RequestRecord.pinItems, List.forall_mem_cons] at items
  obtain ⟨first, second, third, fourth, -⟩ := items
  refine checkItems_ok fun j hj => RequestRecord.pinEntry_eq ?_
  match j with
  | 0 => exact first
  | 1 => exact second
  | 2 => exact third
  | 3 => exact fourth
  | n + 4 => omega

theorem State.assignPins_eq (s : State) (f : Nat → PinSource) : s.assignPins ((List.range 4).map fun j => f (1 + j)) =
    { s with pins := Vector.ofFn fun k : Fin 4 =>
        if s.pins[k].source = f (k.val + 1) then s.pins[k] else { source := f (k.val + 1), pulseEnd := none } } := by
  have entry : ∀ k : Fin 4, ((List.range 4).map fun j => f (1 + j)).getD k.val .none = f (k.val + 1) := fun k => by
    rw [List.getD_eq_getElem _ _ (by simp), List.getElem_map, List.getElem_range, Nat.add_comm]
  unfold State.assignPins
  simp only [entry]
  rfl

/-! CLEAR_FAULTS (R178): the fault sets bit by bit (12.3). -/

theorem PipeFaults.code_bits : ∀ x : PipeFaults, let w := BitVec.ofNat 32 x.code
    w.toNat < 64 ∧ w.getLsbD 0 = x.ackMissed ∧ w.getLsbD 1 = x.recovery ∧ w.getLsbD 2 = x.selectFailed ∧
      w.getLsbD 3 = x.lockLost ∧ w.getLsbD 4 = x.refLost ∧ w.getLsbD 5 = x.lateBand := by
  rintro ⟨a, b, c, d, e, f⟩
  revert a b c d e f
  decide

theorem SurfaceFaults.code_bits : ∀ x : SurfaceFaults, let w := BitVec.ofNat 32 x.code
    w.toNat < 8 ∧ w.getLsbD 0 = x.windowLost ∧ w.getLsbD 1 = x.frameSkipped ∧ w.getLsbD 2 = x.noisyWindow := by
  rintro ⟨a, b, c⟩
  revert a b c
  decide

theorem State.withSurf_versions {s : State} {k : Surface} {x : SurfaceState} (h : x.version = (s.surf k).version) :
    SameVersions s (s.withSurf k x) :=
  ⟨fun _ => rfl, State.withSurf_keeps (·.version) h, rfl, rfl⟩

theorem RequestRecord.pipeTarget_of_surface {r : RequestRecord} {k : Surface} (h : r.targetsSurface k) :
    r.pipeTarget = none := by
  unfold RequestRecord.targetsSurface at h
  exact RequestRecord.pipeTarget_none (by omega) (by omega)

/-- Settles O22: each decision changes its one part of the state. -/
theorem settingsAndFaultSetsChangeAlone : Obligations.SettingsAndFaultSetsChangeAlone := by
  unfold Obligations.SettingsAndFaultSetsChangeAlone
  intro s r u
  refine ⟨fun policy h code => ?_, fun h items => ?_, fun h p target => ?_, fun h k target => ?_⟩
  · have known : policyOfCode (r.u8 0x20) = some policy := by
      simp only [List.mem_cons, Prod.mk.injEq, List.not_mem_nil, or_false] at code
      rcases code with ⟨e, rfl⟩ | ⟨e, rfl⟩ | ⟨e, rfl⟩ <;> rw [e] <;> rfl
    refine becomes_of_decision rfl h ?_ ⟨fun _ => rfl, fun _ => rfl, rfl, rfl⟩
    unfold State.decideSetBank RequestRecord.policyArg
    rw [known]
    rfl
  · refine becomes_of_decision rfl h ?_ ⟨fun _ => rfl, fun _ => rfl, rfl, rfl⟩
    unfold State.decideSetEventPins
    rw [RequestRecord.pinArgs_ok items]
    exact State.assignPins_eq u r.pinRead
  · refine ⟨BitVec.ofNat 32 (s.pipe p).faults.code, ?_, (s.pipe p).faults.code_bits⟩
    refine becomes_of_decision rfl h ?_ ((s.answer_versions r .done none _).trans (State.withPipe_versions rfl))
    unfold State.decideClearFaults
    rw [RequestRecord.pipeTarget_of target]
    rfl
  · refine ⟨BitVec.ofNat 32 (s.surf k).faults.code, ?_, (s.surf k).faults.code_bits⟩
    refine becomes_of_decision rfl h ?_ ((s.answer_versions r .done none _).trans (State.withSurf_versions rfl))
    unfold State.decideClearFaults
    rw [RequestRecord.pipeTarget_of_surface target, RequestRecord.surfaceTarget_of target]
    rfl

end Sys2Proof.Machine
end

section
/-! PROOF. SCAN_COMPLETION (R140, R149, R156 to R162, R168). -/

namespace Sys2Proof.Machine

/-! Rows taken one by one (R156). -/

section

variable {s : State} {k : Surface} {fresh : Bool} {instant : Word} {src : RowSource} {nodes : List Half}

/-- A row that fills the grid completes the touch frame (R160). -/
theorem State.takeRow_fills (fills : (s.surf k).geo.rows ≤ (s.surf k).cursor + 1) :
    s.takeRow k fresh instant src nodes =
      ((s.withSurf k (s.surf k).abandoned).joinHeld k
        (s.touchFrame k ((s.surf k).addRow fresh instant src nodes) instant), true) := if_pos fills

theorem State.takeRow_joins (joins : ¬ (s.surf k).geo.rows ≤ (s.surf k).cursor + 1) :
    s.takeRow k fresh instant src nodes =
      (s.withSurf k { s.surf k with asm := (s.surf k).addRow fresh instant src nodes, cursor := (s.surf k).cursor + 1 },
        false) := if_neg joins

end

/-- The first `i` rows of a scan taken, and whether the next is its first in the frame in assembly. -/
def State.rowsTaken (s : State) (k : Surface) (start : Word) (rowTime : Nat) (src : RowSource)
    (nodes : Nat → List Half) : Nat → State × Bool
  | 0 => (s, true)
  | i + 1 =>
    let r := s.rowsTaken k start rowTime src nodes i
    r.1.takeRow k r.2 (tuAfter start (i * rowTime)) src (nodes i)

theorem State.takeRows_rowsTaken (s : State) (k : Surface) (start : Word) (rowTime : Nat) (src : RowSource)
    (nodes : Nat → List Half) (n : Nat) : ∀ i,
    (s.rowsTaken k start rowTime src nodes i).1.takeRows k start rowTime src nodes n i
      (s.rowsTaken k start rowTime src nodes i).2 = (s.rowsTaken k start rowTime src nodes (i + n)).1 := by
  induction n with
  | zero => exact fun _ => rfl
  | succ n ih =>
    intro i
    rw [← Nat.add_assoc, Nat.add_right_comm]
    exact ih (i + 1)

theorem State.takeRows_eq (s : State) (k : Surface) (start : Word) (rowTime : Nat) (src : RowSource)
    (nodes : Nat → List Half) (n : Nat) :
    s.takeRows k start rowTime src nodes n 0 true = (s.rowsTaken k start rowTime src nodes n).1 :=
  (s.takeRows_rowsTaken k start rowTime src nodes n 0).trans (by rw [Nat.zero_add])

/-! What NOTICE says of the rows (R161, R177). -/

namespace FaultNotes
variable {s t u : State}

theorem modSurf (h : FaultNotes s t) {k : Surface} {g : SurfaceState → SurfaceState}
    (kept : (g (t.surf k)).faults = (t.surf k).faults) : FaultNotes s (t.modSurf k g) := h.withSurf kept

theorem startWrite (h : FaultNotes s t) : FaultNotes s t.startWrite := by
  unfold State.startWrite
  split
  next k _ _ _ =>
    split
    · exact h
    next f held _ =>
      have taken := h.modSurf (k := k) (g := fun x => { x with held := held, skip := 0 }) rfl
      exact taken.same rfl rfl rfl
  · exact h

theorem discardIfFull (h : FaultNotes s t) (k : Surface) : FaultNotes s (t.discardIfFull k) := by
  unfold State.discardIfFull
  split
  · exact (h.modSurf rfl).raiseSurfaceFault k .frameSkipped
  · exact h

theorem joinHeld (h : FaultNotes s t) (k : Surface) (f : TouchFrame) : FaultNotes s (t.joinHeld k f) := by
  have joined := (h.discardIfFull k).modSurf (k := k)
    (g := fun x => { x with held := x.held ++ [{ f with joined := t.joinCounter }] }) rfl
  exact startWrite (joined.same rfl rfl rfl)

theorem takeRow (h : FaultNotes s t) (k : Surface) (fresh : Bool) (instant : Word) (src : RowSource)
    (nodes : List Half) : FaultNotes s (t.takeRow k fresh instant src nodes).1 := by
  by_cases fills : (t.surf k).geo.rows ≤ (t.surf k).cursor + 1
  · rw [State.takeRow_fills fills]
    exact (h.withSurf (x := (t.surf k).abandoned) rfl).joinHeld k _
  · rw [State.takeRow_joins fills]
    exact h.withSurf rfl

theorem rowsTaken (s : State) (k : Surface) (start : Word) (rowTime : Nat) (src : RowSource)
    (nodes : Nat → List Half) (i : Nat) : FaultNotes s (s.rowsTaken k start rowTime src nodes i).1 := by
  induction i with
  | zero => exact .refl s
  | succ i ih => exact ih.takeRow ..

end FaultNotes

/-! The rows leave the pad timer and the count of free values aside. -/

section

variable (s : State) (q : PadTimer) (n : Nat)

theorem State.startWrite_aside : (s.aside q n).startWrite = s.startWrite.aside q n := by
  have writer : (s.aside q n).rpw = s.rpw := rfl
  have head : (s.aside q n).oldestHead = s.oldestHead := rfl
  have surface : ∀ k, (s.aside q n).surf k = s.surf k := fun _ => rfl
  unfold State.startWrite
  rw [writer, head]
  cases s.rpw.writer with
  | some j => rfl
  | none =>
    cases s.rpw.freeList with
    | nil => rfl
    | cons b rest =>
      cases s.oldestHead with
      | none => rfl
      | some k =>
        dsimp only
        rw [surface]
        cases (s.surf k).held <;> rfl

theorem State.raiseSurfaceFault_aside (k : Surface) (f : SurfaceFault) :
    (s.aside q n).raiseSurfaceFault k f = (s.raiseSurfaceFault k f).aside q n := by
  unfold State.raiseSurfaceFault
  rw [State.aside_ite]
  rfl

theorem State.discardIfFull_aside (k : Surface) : (s.aside q n).discardIfFull k = (s.discardIfFull k).aside q n := by
  unfold State.discardIfFull
  rw [State.aside_ite, ← State.raiseSurfaceFault_aside]
  rfl

theorem State.joinHeld_aside (k : Surface) (f : TouchFrame) :
    (s.aside q n).joinHeld k f = (s.joinHeld k f).aside q n := by
  unfold State.joinHeld
  dsimp only
  rw [State.discardIfFull_aside, ← State.startWrite_aside]
  rfl

theorem State.takeRow_aside (k : Surface) (fresh : Bool) (instant : Word) (src : RowSource) (nodes : List Half) :
    (s.aside q n).takeRow k fresh instant src nodes =
      ((s.takeRow k fresh instant src nodes).1.aside q n, (s.takeRow k fresh instant src nodes).2) := by
  by_cases fills : (s.surf k).geo.rows ≤ (s.surf k).cursor + 1
  · rw [State.takeRow_fills fills, State.takeRow_fills (s := s.aside q n) fills, ← State.joinHeld_aside]
    rfl
  · rw [State.takeRow_joins fills, State.takeRow_joins (s := s.aside q n) fills]
    rfl

theorem State.rowsTaken_aside (k : Surface) (start : Word) (rowTime : Nat) (src : RowSource)
    (nodes : Nat → List Half) (i : Nat) :
    (s.aside q n).rowsTaken k start rowTime src nodes i =
      ((s.rowsTaken k start rowTime src nodes i).1.aside q n, (s.rowsTaken k start rowTime src nodes i).2) := by
  induction i with
  | zero => rfl
  | succ i ih =>
    rw [State.rowsTaken, ih]
    exact State.takeRow_aside ..

end

/-! The scan (R140, R158). -/

/-- A scan of a noisy window marks its surface (R158). -/
def State.noisyMarked (s : State) (k : Surface) (noisy : Bool) : State :=
  if noisy then s.withSurf k { s.surf k with faults := { (s.surf k).faults with noisyWindow := true } } else s

theorem State.noisyMarked_spec (s : State) (k : Surface) (noisy : Bool) :
    ∃ m, let t : State := { s.noisyMarked k noisy with notice := m }
    FaultNotes s t ∧ (if noisy then s.raiseSurfaceFault k .noisyWindow else s) = t := by
  cases noisy with
  | false => exact ⟨s.notice, .refl s, rfl⟩
  | true =>
    have raised := s.raiseSurfaceFault_eq k .noisyWindow
    exact ⟨_, raised ▸ (FaultNotes.refl s).raiseSurfaceFault k .noisyWindow, raised⟩

theorem State.noisyMarked_same (s : State) (k : Surface) (noisy : Bool) :
    (s.noisyMarked k noisy).notice = s.notice := by cases noisy <;> rfl

/-- A scan that has delivered its rows, of a noisy window or not, and the bank freed. -/
def State.scanEnded (s : State) (k : Surface) (noisy : Bool) : State :=
  ((s.noisyMarked k noisy).modBank fun b => { b with mode := .parked, granted := none }).freed

theorem State.scanEnded_aside (s : State) (q : PadTimer) (n : Nat) (k : Surface) (noisy : Bool) :
    (s.aside q n).scanEnded k noisy = (s.scanEnded k noisy).aside q n := by
  have marked : (s.aside q n).noisyMarked k noisy = (s.noisyMarked k noisy).aside q n := by cases noisy <;> rfl
  unfold State.scanEnded
  rw [marked]
  exact State.freed_aside ((s.noisyMarked k noisy).modBank fun b => { b with mode := .parked, granted := none }) q n

/-- The end of a scan in an event that has delivered its rows. -/
theorem State.scanEnded_noted {s t : State} (notes : FaultNotes s t) (k : Surface) (noisy : Bool) :
    ((if noisy then t.raiseSurfaceFault k .noisyWindow else t).modBank fun b =>
      { b with mode := .parked, granted := none }).freeBank = (t.scanEnded k noisy).noted s := by
  obtain ⟨m, marks, marked⟩ := t.noisyMarked_spec k noisy
  have parked := marks.same (u := State.modBank { t.noisyMarked k noisy with notice := m } fun b =>
    { b with mode := .parked, granted := none }) rfl rfl rfl
  rw [marked]
  exact State.freeBank_noted notes parked rfl (t.noisyMarked_same k noisy)

/-- The rows that a scan delivers at its completion. -/
def State.scanDelivered (s : State) (r : BankRequest) (nodes : List Half) : State :=
  (s.rowsTaken r.surface s.bank.scanStart (s.surf r.surface).geo.rowTime r.particulars.rowSource
    (rowNodes nodes s.free (s.surf r.surface).geo.cols) s.bank.scanRows).1

/-- A scan's completion: its rows, its mark and the freed bank, where a free value may have been drawn (log 9). -/
theorem State.completeScan_eq (s : State) (r : BankRequest) (nodes : List Half) : ∃ n,
    let t := (s.scanDelivered r nodes).aside s.pct n
    s.completeScan r nodes =
      ((if r.particulars.rowSource.noisy then t.raiseSurfaceFault r.surface .noisyWindow else t).modBank fun b =>
        { b with mode := .parked, granted := none }).freeBank := by
  have drawn : ∃ n, (if nodes.length < s.bank.scanRows * (s.surf r.surface).geo.cols then (s.draw).2 else s) =
      s.aside s.pct n := by
    split
    · exact ⟨s.free + 1, rfl⟩
    · exact ⟨s.free, rfl⟩
  obtain ⟨n, drawn⟩ := drawn
  refine ⟨n, ?_⟩
  unfold State.completeScan
  dsimp only
  rw [drawn, State.takeRows_eq, State.rowsTaken_aside]
  rfl

/-- A scan's completion, field by field, but for the count of free values. -/
theorem State.completeScan_noted (s : State) (r : BankRequest) (nodes : List Half) : ∃ n, s.completeScan r nodes =
    { ((s.scanDelivered r nodes).scanEnded r.surface r.particulars.rowSource.noisy).noted s with free := n } := by
  obtain ⟨n, completed⟩ := s.completeScan_eq r nodes
  have notes : FaultNotes s (s.scanDelivered r nodes) := .rowsTaken ..
  have drawn : FaultNotes s ((s.scanDelivered r nodes).aside s.pct n) := notes.same rfl rfl rfl
  have kept : (s.scanDelivered r nodes).aside s.pct s.free = s.scanDelivered r nodes :=
    (congrArg Prod.fst (s.rowsTaken_aside s.pct s.free ..)).symm
  have timer : ((s.scanDelivered r nodes).scanEnded r.surface r.particulars.rowSource.noisy).pct = s.pct := by
    rw [← kept, State.scanEnded_aside]
    rfl
  refine ⟨n, ?_⟩
  rw [completed, State.scanEnded_noted drawn, State.scanEnded_aside, ← timer]
  rfl

/-! The record of a delivered scan's surface (R149, R162). -/

theorem State.surfaceRewritten_ref (t s : State) (k : Surface) : (t.surfaceRewritten s k).ref = t.ref := by
  unfold State.surfaceRewritten
  split
  · exact t.rewriteSurface_ref k
  · rfl

/-- An event that rewrites a surface's record in any case. -/
theorem becomes_of_delivery {c : Instr} {s v u : State} {k : Surface}
    (executed : exec c s = .next ((publish s v).surfaceRewritten s k)) (fields : v.bare = u.bare)
    (stored : ∀ a, v.mem.read a = u.mem.read a) (versions : SameVersions s v) : Becomes c s u := by
  refine ⟨_, executed, by simpa using fields, fun a unchanged => ?_⟩
  have up : ∀ x : Word, x ≠ x + 1 := fun x => by bv_omega
  have own : ¬ inRange a (surfaceRecordBase k) 128 := fun inside => by
    refine unchanged (.inr (.inl ⟨k, inside, ?_⟩))
    rw [State.surfaceRewritten_version]
    split
    next kept =>
      rw [kept.2]
      exact up _
    next raised => exact fun same => raised ⟨rfl, same.symm⟩
  have published : ¬ s.recordChanged (publish s v) a := fun changed => by
    refine unchanged ?_
    rcases changed with ⟨p, inside, changed⟩ | ⟨f, inside, changed⟩ | ⟨inside, changed⟩ | ⟨inside, changed⟩
    · exact .inl ⟨p, inside, by rwa [State.surfaceRewritten_pipe]⟩
    · refine .inr (.inl ⟨f, inside, ?_⟩)
      have other : ¬ (f = k ∧ ((publish s v).surf k).version = (s.surf k).version) := fun h => own (h.1 ▸ inside)
      rwa [State.surfaceRewritten_version, if_neg other]
    · exact .inr (.inr (.inl ⟨inside, by rwa [State.surfaceRewritten_bank]⟩))
    · exact .inr (.inr (.inr ⟨inside, by rwa [State.surfaceRewritten_ref]⟩))
  rw [State.surfaceRewritten_read _ _ _ _ own, publish_read s v versions a published, stored]

/-- Settles O43: the rows by induction on how many are taken; then the bank parks and is freed. -/
theorem scansDeliverTheirRows : Obligations.ScansDeliverTheirRows := by
  unfold Obligations.ScansDeliverTheirRows
  intro s r nodes _ scanning ends granted k geo source delivered
  refine ⟨s.rowsTaken k s.bank.scanStart geo.rowTime source delivered, rfl, fun _ => rfl, ?_⟩
  intro u v
  have due : s.scanDue = true := decide_eq_true ⟨scanning, ends⟩
  have executed : exec (.scanCompletion nodes) s =
      .next ((publish s (s.completeScan r nodes)).surfaceRewritten s k) := by
    show Host.Outcome.next (if s.scanDue then s.endScan nodes else s) = _
    rw [if_pos due]
    unfold State.endScan
    rw [granted]
  obtain ⟨n, completed⟩ := s.completeScan_noted r nodes
  have versions := ((Within.refl Set.univ s).completeScan trivial r nodes).versions
  exact becomes_of_delivery executed (by rw [completed]; rfl) (fun _ => by rw [completed]; rfl) versions

end Sys2Proof.Machine
end

section
/-! PROOF. A row of a scan, and the touch frame that it completes (R156 to R158, R160, R161, R168). -/

namespace Sys2Proof.Machine

/-! The writer's check neither reads nor writes NOTICE. -/

theorem State.writerChecks_notice (s : State) (n : Notices) :
    State.writerChecks { s with notice := n } = { s.writerChecks with notice := n } := by
  unfold State.writerChecks
  have held : ∀ k, State.surf { s with notice := n } k = s.surf k := fun _ => rfl
  rw [held, held]
  dsimp only
  cases s.rpw.writer with
  | some j => rfl
  | none =>
    cases s.rpw.freeList with
    | nil => rfl
    | cons b free =>
      cases (s.surf .s0).held with
      | nil => cases (s.surf .s1).held <;> rfl
      | cons f rest =>
        cases (s.surf .s1).held with
        | nil => rfl
        | cons g rest' =>
          dsimp only
          cases olderHead s.time f g <;> rfl

/-! A frame that joins the held list (R161). -/

/-- Whether a frame that joins now makes a new FRAME_SKIPPED: the list is full, and the flag is clear (R161, R177). -/
def SurfaceState.skipsAnew (x : SurfaceState) : Bool := decide (2 ≤ x.held.length) && !x.faults.frameSkipped

/-- A surface whose held list, when full, has given up its head (R161). -/
def SurfaceState.madeRoom (x : SurfaceState) : SurfaceState :=
  if 2 ≤ x.held.length then
    { x with held := x.held.tail, skip := min 65535 (x.skip + 1), faults := { x.faults with frameSkipped := true } }
  else x

theorem State.discardIfFull_eq (s : State) (k : Surface) :
    s.discardIfFull k = { s.withSurf k (s.surf k).madeRoom with
      notice := { s.notice with fault := s.notice.fault || (s.surf k).skipsAnew } } := by
  unfold State.discardIfFull SurfaceState.madeRoom SurfaceState.skipsAnew
  by_cases full : 2 ≤ (s.surf k).held.length
  · rw [if_pos full, if_pos full, decide_eq_true full, Bool.true_and, State.raiseSurfaceFault_eq, State.modSurf_surf,
      List.drop_one, satHalf, Nat.min_comm]
    simp only [State.withSurf, State.modSurf, PerSurface.set_set]
    rfl
  · rw [if_neg full, if_neg full, decide_eq_false full, Bool.false_and, Bool.or_false]
    simp only [State.withSurf, State.surf, PerSurface.set_get]

theorem State.joinHeld_eq (s : State) (k : Surface) (f : TouchFrame) :
    s.joinHeld k f = { (s.joining k f).writerChecks with
      notice := { s.notice with fault := s.notice.fault || (s.surf k).skipsAnew } } := by
  unfold State.joinHeld
  rw [State.startWrite_eq, ← State.writerChecks_notice, State.discardIfFull_eq]
  congr 1
  simp only [State.joining, State.modSurf, State.withSurf, State.surf, PerSurface.set_set, PerSurface.get_set]
  rfl

/-! The row (R156 to R158, R160). -/

theorem bit_add (n : Nat) (b : Bool) : n + bit b = if b then n + 1 else n := by cases b <;> rfl

/-- Settles O44: a row that fills the grid completes a touch frame, which joins the held list; another row joins the
frame in assembly. -/
theorem rowsFillTouchFrames : Obligations.RowsFillTouchFrames := by
  unfold Obligations.RowsFillTouchFrames
  intro s k fresh instant src nodes x first a r
  have assembled : x.addRow fresh instant src nodes = a := by
    unfold SurfaceState.addRow
    rw [bit_add, bit_add]
  refine ⟨fun joins => ?_, fun fills => ?_⟩
  · rw [← assembled]
    exact State.takeRow_joins (Nat.not_le.2 joins)
  · intro f skips
    have recorded : s.touchFrame k a instant = f := by cases k <;> rfl
    have kept : ((s.withSurf k x.abandoned).surf k).skipsAnew = skips := by cases k <;> rfl
    have completed : r = ((s.withSurf k x.abandoned).joinHeld k f, true) := by
      rw [← recorded, ← assembled]
      exact State.takeRow_fills fills
    rw [completed, State.joinHeld_eq, kept]
    rfl

end Sys2Proof.Machine
end

section
/-! PROOF. What leaves the reports alone (R165, R166): all that runs but the writer's check, its completion, a claim return
and the resets. -/

namespace Sys2Proof.Machine

/-- What says in which state each report block is: the Report Writer's fields, the marks and the claim words (R165, R166). -/
def State.population (s : State) : ReportWriter × Vector Bool 16 × (Fin 16 → Word) :=
  (s.rpw, s.filledMarks, fun b => s.mem.readWord (blockBase b))

/-- A store that spares the claim words. -/
theorem State.population_store (s : State) {m : Memory}
    (spares : ∀ (b : Fin 16) a, inRange a (blockBase b) 4 → m.read a = s.mem.read a) :
    State.population { s with mem := m } = s.population :=
  congrArg (fun claims => (s.rpw, s.filledMarks, claims))
    (funext fun b => Memory.readWord_congr fun a low high => spares b a ⟨low, high⟩)

/-- Claim words lie above the cells, the status area and the plan pages. -/
theorem State.population_low (s : State) {m : Memory} (far : ∀ a, 0x2000 ≤ a → m.read a = s.mem.read a) :
    State.population { s with mem := m } = s.population :=
  s.population_store fun b a inside => far a (by unfold inRange blockBase at inside; omega)

theorem State.population_of_bare {s t : State} (same : t.bare = s.bare)
    (far : ∀ a, 0x2000 ≤ a → t.mem.read a = s.mem.read a) : t.population = s.population := by
  have rpw : t.rpw = s.rpw := show t.bare.rpw = s.bare.rpw from congrArg State.rpw same
  have marks : t.filledMarks = s.filledMarks :=
    show t.bare.filledMarks = s.bare.filledMarks from congrArg State.filledMarks same
  rw [← s.population_low far]
  unfold State.population
  rw [rpw, marks]

/-! Status records. -/

@[simp] theorem publish_population (s t : State) : (publish s t).population = t.population :=
  State.population_of_bare (publish_bare s t) fun a high => ((Ordinary.refl t).publish s).far a (.inr high)

@[simp] theorem State.pipeRewritten_population (t s : State) (p : Pipe) :
    (t.pipeRewritten s p).population = t.population :=
  State.population_of_bare (t.pipeRewritten_bare s p) fun a high =>
    ((Ordinary.refl t).pipeRewritten s p).far a (.inr high)

@[simp] theorem State.surfaceRewritten_population (t s : State) (k : Surface) :
    (t.surfaceRewritten s k).population = t.population :=
  State.population_of_bare (t.surfaceRewritten_bare s k) fun a high =>
    ((Ordinary.refl t).surfaceRewritten s k).far a (.inr high)

section
variable (s : State) (p : Pipe) (k : Surface)

/-! Updates of the other blocks. -/

@[simp] theorem State.modLc_population (g : LinkCtl → LinkCtl) : (s.modLc p g).population = s.population := rfl
@[simp] theorem State.modPb_population (g : PlanBuilder → PlanBuilder) : (s.modPb p g).population = s.population := rfl
@[simp] theorem State.modFr_population (g : Runner → Runner) : (s.modFr p g).population = s.population := rfl
@[simp] theorem State.modSurf_population (g : SurfaceState → SurfaceState) : (s.modSurf k g).population = s.population :=
  rfl
@[simp] theorem State.modBank_population (g : Bank → Bank) : (s.modBank g).population = s.population := rfl
@[simp] theorem State.modRef_population (g : RefUnit → RefUnit) : (s.modRef g).population = s.population := rfl
@[simp] theorem State.pulsePins_population (src : PinSource) : (s.pulsePins src).population = s.population := rfl
@[simp] theorem State.draw_population : (s.draw).2.population = s.population := rfl
@[simp] theorem State.finishTake_population (r : RequestRecord) (status : Status) (results : List Word) :
    (s.finishTake r status results).population = s.population := rfl
@[simp] theorem State.finishBadValue_population (r : RequestRecord) (item : Nat) :
    (s.finishBadValue r item).population = s.population := rfl
@[simp] theorem State.park_population (r : RequestRecord) : (s.park r).population = s.population := rfl

@[simp] theorem State.serveCompletions_population : s.serveCompletions.population = s.population := by
  rw [State.serveCompletions_eq]
  rfl

@[simp] theorem Handing.finish_population (x : Handing) : x.finish.population = x.1.population := by
  obtain ⟨q, n, handed, -⟩ := State.handOverGroups_spec x.1 x.2
  unfold Handing.finish
  rw [handed]
  rfl

/-! Faults, links, locks and messages. -/

@[simp] theorem State.raisePipeFault_population (f : PipeFault) : (s.raisePipeFault p f).population = s.population := by
  rw [State.raisePipeFault_eq]
  rfl

@[simp] theorem State.raiseSurfaceFault_population (f : SurfaceFault) :
    (s.raiseSurfaceFault k f).population = s.population := by
  rw [State.raiseSurfaceFault_eq]
  rfl

@[simp] theorem State.setLink_population (x : LinkState) : (s.setLink p x).population = s.population := by
  rw [State.setLink_eq]
  rfl

@[simp] theorem State.setLock_population (g : LockCtl → LockCtl) : (s.setLock p g).population = s.population := by
  rw [State.setLock_eq]
  rfl

@[simp] theorem State.sendMessage_population (m : TxMessage) (supervised : Bool) :
    (s.sendMessage p m supervised).population = s.population := by
  rw [State.sendMessage_eq]
  rfl

@[simp] theorem State.releaseSlot_population (slot : Option Slot) : (s.releaseSlot p slot).population = s.population := by
  rw [State.releaseSlot_eq]
  rfl

@[simp] theorem State.makePlan_population (n : Word) (c : Contract) : (s.makePlan p n c).population = s.population :=
  State.population_low (s.modPb p _) fun a high => Memory.read_writeBytes_off _ _ _ a fun inside => by
    rw [Plan.bytes_length] at inside
    cases p <;> simp only [planPageBase] at inside <;> omega

@[simp] theorem State.loseSource_population (g : LockCtl → LockCtl) : (s.loseSource p g).population = s.population := by
  rw [State.loseSource_eq]
  rfl

@[simp] theorem State.enterSelecting_population (c : Contract) : (s.enterSelecting p c).population = s.population := by
  simp [State.enterSelecting]

@[simp] theorem State.enterProbing_population : (s.enterProbing p).population = s.population := by
  simp [State.enterProbing]

@[simp] theorem State.beginAdmission_population : (s.beginAdmission p).population = s.population := by
  simp [State.beginAdmission]

/-! Frame starts and pulses (R83 to R87, R107). -/

@[simp] theorem State.startLocal_population (how : StartKind) : (s.startLocal p how).1.population = s.population := by
  obtain ⟨r, -, started⟩ := s.startLocal_eq p how
  rw [started]
  rfl

@[simp] theorem State.takePulse_population : (s.takePulse p).1.population = s.population := by
  unfold State.takePulse State.takeLockPulse
  dsimp only
  split <;> simp

@[simp] theorem State.takeRefPulse_population : (s.takeRefPulse p).1.population = s.population := by
  unfold State.takeRefPulse
  split <;> simp

@[simp] theorem State.startFrame_population (how : StartKind) : (s.startFrame p how).1.population = s.population := by
  unfold State.startFrame
  dsimp only
  split
  · split
    · dsimp only
      split <;> simp
    · simp
  · simp

@[simp] theorem State.startBoth_population (ps : List Pipe) : (s.startBoth ps).1.population = s.population := by
  induction ps generalizing s with
  | nil => rfl
  | cons p ps ih => exact (ih _).trans (s.startFrame_population p .aligned)

@[simp] theorem State.refPulse_population : s.refPulse.1.population = s.population := by
  unfold State.refPulse
  dsimp only
  split <;> simp

/-! Slots and the ends of frames (R50 to R52, R78, R89 to R95, R127). -/

@[simp] theorem State.slotCompleted_population (slot : Option Slot) :
    (s.slotCompleted p slot).1.population = s.population := by
  unfold State.slotCompleted
  split
  · unfold State.burstCompleted
    dsimp only
    split <;> simp
  · rfl

@[simp] theorem State.planPoint_population : (s.planPoint p).population = s.population := by
  have staged : (s.stagedSelection p).population = s.population := by
    unfold State.stagedSelection
    split <;> simp
  unfold State.planPoint
  dsimp only
  split <;> simp [staged]

@[simp] theorem State.endFrame_population : (s.endFrame p).1.population = s.population := by
  unfold State.endFrame
  split
  · split
    · simp [State.endIntoSelecting]
    · simp
  · simp

@[simp] theorem State.callPullIn_population (served : Bool) : (s.callPullIn p served).population = s.population := by
  unfold State.callPullIn
  split
  · split <;> simp
  · simp
  · simp

@[simp] theorem State.enterActive_population (c : Contract) : (s.enterActive p c).1.population = s.population := by
  unfold State.enterActive
  dsimp only
  split <;> simp

/-! The bank (R134 to R146, R154). -/

@[simp] theorem State.loseRequest_population : (s.loseRequest k).population = s.population := by
  simp [State.loseRequest, State.countLoss]

@[simp] theorem State.startScan_population (r : BankRequest) : (s.startScan r).1.population = s.population := by
  unfold State.startScan
  dsimp only
  split <;> simp

@[simp] theorem State.grant_population (r : BankRequest) : (s.grant r).1.population = s.population := by
  unfold State.grant
  dsimp only
  split <;> simp

@[simp] theorem State.freeBank_population : s.freeBank.population = s.population := by
  have serves : ∀ n (s : State), (s.serveWaiting n).population = s.population := fun n => by
    induction n with
    | zero => exact fun _ => rfl
    | succ n ih =>
      intro s
      unfold State.serveWaiting
      split
      · rfl
      · dsimp only
        split <;> simp [State.unwait, ih]
  exact serves 2 s

@[simp] theorem State.requestArrives_population (r : BankRequest) :
    (s.requestArrives r).population = s.population := by
  unfold State.requestArrives
  dsimp only
  split
  · simp
  · split
    · split <;> simp
    · split <;> simp

@[simp] theorem State.abortScan_population : (s.abortScan k).population = s.population := by
  unfold State.abortScan
  split <;> simp

theorem State.discardIfFull_population : (s.discardIfFull k).population = s.population := by
  unfold State.discardIfFull
  split <;> simp

@[simp] theorem State.abandonFrame_population : (s.abandonFrame k).population = s.population := rfl

@[simp] theorem State.endBankUse_population : (s.endBankUse k).population = s.population := by
  unfold State.endBankUse
  dsimp only
  split <;> simp [State.unwait]

@[simp] theorem State.endRetune_population : s.endRetune.population = s.population := by
  unfold State.endRetune
  split
  · dsimp only
    split <;> simp
  · simp

@[simp] theorem State.expireRequest_population : (s.expireRequest k).population = s.population := by
  simp [State.expireRequest, State.unwait]

@[simp] theorem State.tickPad_population : s.tickPad.population = s.population :=
  State.requestArrives_population { s with pct := { s.pct with tickCount := s.pct.tickCount + 1 } } _

@[simp] theorem State.setGeometry_population (geo : Geometry) : (s.setGeometry k geo).population = s.population := by
  have done : (((s.modSurf k fun x => { x with geo := geo }).abortScan k).abandonFrame k).population = s.population := by
    simp
  unfold State.setGeometry
  cases k with
  | s0 => exact done
  | s1 =>
    dsimp only
    split <;> exact done

@[simp] theorem State.turnOn_population : (s.turnOn k).population = s.population := by
  cases k with
  | s0 => rfl
  | s1 => exact State.tickPad_population _

@[simp] theorem State.turnOff_population : (s.turnOff k).population = s.population := by
  have off : (((s.modSurf k fun x => { x with enabled := false }).endBankUse k).abandonFrame k).population =
    s.population := by simp
  cases k with
  | s0 => exact off
  | s1 => exact off

/-! Link stops and misses (R24, R29 to R37). -/

@[simp] theorem State.linkStop_population : (s.linkStop p).1.population = s.population := by
  unfold State.linkStop State.abortParked
  cases p <;> simp

@[simp] theorem State.leaveLink_population : (s.leaveLink p).1.population = s.population := by
  unfold State.leaveLink
  split <;> simp

@[simp] theorem State.enterRecovery_population (why : StopReason) :
    (s.enterRecovery p why).1.population = s.population := by
  unfold State.enterRecovery
  dsimp only
  split <;> simp

@[simp] theorem State.enterOff_population (why : StopReason) : (s.enterOff p why).1.population = s.population := by
  simp [State.enterOff]

@[simp] theorem State.missFrame_population : (s.missFrame p).1.population = s.population := by
  unfold State.missFrame
  dsimp only
  split <;> simp

end

end Sys2Proof.Machine
end

section
/-! PROOF. The events and decisions that leave the reports alone (R10, R11, R18 to R33, R78 to R95, R104, R105). -/

namespace Sys2Proof.Machine

/-! Messages, timers and slots. -/

section
variable (s : State) (p : Pipe)

theorem State.receiveList_population (modes : List ModeRecord) : (s.receiveList p modes).population = s.population := by
  unfold State.receiveList
  split
  · rfl
  · split
    · dsimp only
      split <;> simp
    · rfl

theorem State.receiveAck_population (e v : Byte) : (s.receiveAck p e v).population = s.population := by
  unfold State.receiveAck
  split
  · split
    · split <;> simp
    · rfl
  · split <;> simp
  · rfl

theorem State.receiveNak_population : (s.receiveNak p).population = s.population := by
  unfold State.receiveNak
  split <;> simp

theorem State.receivePanelFault_population (code : Byte) : (s.receivePanelFault p code).population = s.population := by
  unfold State.receivePanelFault
  dsimp only
  split <;> simp

theorem State.receive_population (m : RxMessage) : (s.receive p m).population = s.population := by
  cases m with
  | list modes => exact s.receiveList_population p modes
  | ack e v => exact s.receiveAck_population p e v
  | nak => exact s.receiveNak_population p
  | panelFault code => exact s.receivePanelFault_population p code

theorem State.endSending_population : (s.endSending p).population = s.population := by
  unfold State.endSending
  split
  · rfl
  · unfold State.sendWaiting
    split <;> rfl

theorem State.probeExpired_population : (s.probeExpired p).population = s.population := by
  unfold State.probeExpired
  dsimp only
  split <;> simp

theorem State.startWindow_population : s.startWindow.population = s.population := by
  have raises : ∀ t : State, t.raiseWindow.population = t.population := fun t => by
    unfold State.raiseWindow
    dsimp only
    split
    · split <;> simp
    · rfl
  simp [State.startWindow, raises, State.holdPanel, State.nextSlot]

theorem State.startBlank_population : (s.startBlank p).population = s.population := by
  simp [State.startBlank, State.nextSlot]

theorem State.endTrim_population : (s.endTrim p).population = s.population := by
  unfold State.endTrim
  split <;> simp

/-! The reference. -/

theorem State.takeEdge_population : s.takeEdge.population = s.population := by
  unfold State.takeEdge
  split <;> simp

theorem State.generatePulse_population : s.generatePulse.population = s.population := by
  simp [State.generatePulse]

theorem State.becomeReady_population : s.becomeReady.population = s.population := by
  have up : State.population { s with ready := true } = s.population := rfl
  simp [State.becomeReady, up]

end

/-! The decisions of the request kinds (R10, R11). -/

section
variable (s : State) (r : RequestRecord)

theorem State.decideSetOffers_population : (s.decideSetOffers r).population = s.population := by
  unfold State.decideSetOffers
  split
  · rfl
  · split
    · rfl
    · dsimp only
      split <;> simp

theorem State.decideNegotiate_population : (s.decideNegotiate r).population = s.population := by
  unfold State.decideNegotiate
  split
  · rfl
  · split
    · rfl
    · split <;> simp

theorem State.parkAdmit_population (p : Pipe) : (s.parkAdmit r p).population = s.population := by
  unfold State.parkAdmit
  split
  · rfl
  · dsimp only
    split <;> simp

theorem State.decideAdmit_population : (s.decideAdmit r).population = s.population := by
  unfold State.decideAdmit
  split
  · rfl
  · split
    · rfl
    · rfl
    all_goals exact s.parkAdmit_population r _

theorem State.decidePipeRestart_population : (s.decidePipeRestart r).population = s.population := by
  unfold State.decidePipeRestart
  split
  · rfl
  · simp [State.restartPipe, State.abortParked]

theorem State.decideSetQuiet_population : (s.decideSetQuiet r).population = s.population := by
  unfold State.decideSetQuiet
  split
  · rfl
  · rfl
  · split <;> rfl

theorem State.decideUrgentBand_population : (s.decideUrgentBand r).population = s.population := by
  unfold State.decideUrgentBand
  split
  · rfl
  · split
    · rfl
    · split
      · rfl
      · split <;> simp

theorem State.decideFrameNow_population : (s.decideFrameNow r).population = s.population := by
  unfold State.decideFrameNow
  split
  · rfl
  · split
    · rfl
    · split <;> simp

theorem State.decideSetReference_population : (s.decideSetReference r).population = s.population := by
  unfold State.decideSetReference
  split
  · rfl
  · split <;> rfl

theorem State.decideSetSurface_population : (s.decideSetSurface r).population = s.population := by
  unfold State.decideSetSurface
  split
  · rfl
  · split <;> simp

theorem State.decideSurfaceEnable_population : (s.decideSurfaceEnable r).population = s.population := by
  unfold State.decideSurfaceEnable
  split
  · rfl
  · split
    · rfl
    · dsimp only
      split <;> simp

theorem State.decideSetBank_population : (s.decideSetBank r).population = s.population := by
  unfold State.decideSetBank
  split <;> rfl

theorem State.decideSetEventPins_population : (s.decideSetEventPins r).population = s.population := by
  unfold State.decideSetEventPins
  split <;> rfl

theorem State.decideClearFaults_population : (s.decideClearFaults r).population = s.population := by
  unfold State.decideClearFaults
  split <;> rfl

end

end Sys2Proof.Machine
end

section
/-! PROOF. Every step keeps each report block FREE, WRITING or FILLED as the free list, the writer, the marks and the claim
words say (R165 to R175). -/

namespace Sys2Proof.Machine

/-! One block. -/

/-- What the free list, the writer, the marks and the claim words say of a block is its state. -/
structure State.BlockAgrees (s : State) (b : Fin 16) : Prop where
  free    : s.rpw.blocks[b] = .free ↔ b ∈ s.rpw.freeList
  writing : s.rpw.blocks[b] = .writing ↔ s.rpw.writer.map (·.block) = some b
  marked  : s.rpw.blocks[b] = .filled ↔ s.filledMarks[b] = true
  claimed : s.rpw.blocks[b] = .filled ↔ s.mem.readWord (blockBase b) ≠ 0

theorem State.blocksSafe_iff (s : State) : s.blocksSafe ↔
    s.rpw.freeList.Nodup ∧ (∀ b, s.BlockAgrees b) ∧ ∀ k, s.rpw.nextSeq.get k ≠ 0 := by
  constructor
  · rintro ⟨apart, free, writing, marked, claimed, sequence⟩
    exact ⟨apart, fun b => ⟨free b, writing b, marked b, claimed b⟩, sequence⟩
  · rintro ⟨apart, agrees, sequence⟩
    exact ⟨apart, fun b => (agrees b).free, fun b => (agrees b).writing, fun b => (agrees b).marked,
      fun b => (agrees b).claimed, sequence⟩

namespace State.BlockAgrees
variable {s t : State} {b : Fin 16}

theorem congr (h : s.BlockAgrees b) (state : t.rpw.blocks[b] = s.rpw.blocks[b])
    (free : b ∈ t.rpw.freeList ↔ b ∈ s.rpw.freeList)
    (writer : t.rpw.writer.map (·.block) = some b ↔ s.rpw.writer.map (·.block) = some b)
    (mark : t.filledMarks[b] = s.filledMarks[b])
    (claim : t.mem.readWord (blockBase b) = s.mem.readWord (blockBase b)) : t.BlockAgrees b where
  free := by rw [state, free, h.free]
  writing := by rw [state, writer, h.writing]
  marked := by rw [state, mark, h.marked]
  claimed := by rw [state, claim, h.claimed]

/-- A block that is not FILLED has neither mark nor claim word. -/
theorem unfilled (h : s.BlockAgrees b) (other : s.rpw.blocks[b] ≠ .filled) :
    s.filledMarks[b] = false ∧ s.mem.readWord (blockBase b) = 0 :=
  ⟨Bool.eq_false_iff.2 fun mark => other (h.marked.2 mark), by_contra fun claim => other (h.claimed.2 claim)⟩

theorem of_free (state : s.rpw.blocks[b] = .free) (free : b ∈ s.rpw.freeList)
    (writer : s.rpw.writer.map (·.block) ≠ some b) (mark : s.filledMarks[b] = false)
    (claim : s.mem.readWord (blockBase b) = 0) : s.BlockAgrees b := by
  constructor <;> simp [state, free, writer, mark, claim]

theorem of_writing (state : s.rpw.blocks[b] = .writing) (free : b ∉ s.rpw.freeList)
    (writer : s.rpw.writer.map (·.block) = some b) (mark : s.filledMarks[b] = false)
    (claim : s.mem.readWord (blockBase b) = 0) : s.BlockAgrees b := by
  constructor <;> simp [state, free, writer, mark, claim]

theorem of_filled (state : s.rpw.blocks[b] = .filled) (free : b ∉ s.rpw.freeList)
    (writer : s.rpw.writer.map (·.block) ≠ some b) (mark : s.filledMarks[b] = true)
    (claim : s.mem.readWord (blockBase b) ≠ 0) : s.BlockAgrees b where
  free := by simp [state, free]
  writing := by simp [state, writer]
  marked := by simp [state, mark]
  claimed := ⟨fun _ => claim, fun _ => state⟩

end State.BlockAgrees

/-- What leaves the reports alone keeps the blocks safe. -/
theorem State.blocksSafe.of_population {s t : State} (h : s.blocksSafe) (same : t.population = s.population) :
    t.blocksSafe := by
  obtain ⟨rpw, marks, claims⟩ : t.rpw = s.rpw ∧ t.filledMarks = s.filledMarks ∧
      (fun b => t.mem.readWord (blockBase b)) = fun b => s.mem.readWord (blockBase b) := by
    simpa only [State.population, Prod.mk.injEq] using same
  obtain ⟨apart, agrees, sequence⟩ := s.blocksSafe_iff.1 h
  exact t.blocksSafe_iff.2 ⟨rpw ▸ apart, fun b => (agrees b).congr (by rw [rpw]) (by rw [rpw]) (by rw [rpw])
    (by rw [marks]) (congrFun claims b), fun k => rpw ▸ sequence k⟩

theorem getElem_set_same {α : Type} (v : Vector α 16) (b : Fin 16) (x : α) : (v.set b x)[b] = x := by simp

theorem getElem_set_other {α : Type} (v : Vector α 16) {b d : Fin 16} (x : α) (other : d ≠ b) : (v.set b x)[d] = v[d] := by
  have : b.val ≠ d.val := fun same => other (Fin.ext same.symm)
  simp [this]

/-! The Report Writer's operations (R167 to R170, R175). -/

/-- The population as the claim words give it (R175). -/
theorem State.rebuildBlocks_blocksSafe (s : State) : s.rebuildBlocks.blocksSafe := by
  rw [State.rebuildBlocks_eq]
  refine (State.blocksSafe_iff _).2 ⟨?_, fun b => ?_, fun k => ?_⟩
  · dsimp only
    exact (List.nodup_finRange 16).filter _
  · by_cases claim : s.mem.readWord (blockBase b) = 0
    · exact .of_free (by simp [claim]) (by simp [claim]) nofun (by simp [claim]) claim
    · have claim' : ¬ s.mem.readWord (blockBase b) = 0#32 := claim
      exact .of_filled (by simp [claim']) (by simp [claim']) nofun (by simp [claim']) claim
  · cases k <;> exact (by decide : (1 : Word) ≠ 0)

namespace State.blocksSafe
variable {s t : State}

/-- The head of the free list is no longer FREE once its write starts (R168). -/
theorem startWrite (h : s.blocksSafe) : s.startWrite.blocksSafe := by
  obtain ⟨apart, agrees, sequence⟩ := s.blocksSafe_iff.1 h
  unfold State.startWrite
  split
  next b rest k idle free _ =>
    split
    next => exact h
    next f held _ =>
      rw [free] at apart
      obtain ⟨out, apart⟩ := List.nodup_cons.1 apart
      refine (State.blocksSafe_iff _).2 ⟨apart, fun d => ?_, sequence⟩
      by_cases same : d = b
      · subst same
        have before : s.rpw.blocks[d] = .free := (agrees d).free.2 (by rw [free]; exact List.mem_cons_self)
        obtain ⟨mark, claim⟩ := (agrees d).unfilled (by rw [before]; decide)
        exact .of_writing (getElem_set_same ..) out rfl mark claim
      · have others : d ∈ rest ↔ d ∈ s.rpw.freeList := by rw [free, List.mem_cons, or_iff_right same]
        have idles : s.rpw.writer.map (·.block) ≠ some d := by rw [idle]; exact nofun
        refine (agrees d).congr (getElem_set_other _ _ same) others ⟨fun e => ?_, fun e => absurd e idles⟩ rfl rfl
        exact absurd (Option.some.inj e).symm same
  next => exact h

/-- A claim return frees a FILLED block (R167). -/
theorem claimArrival (h : s.blocksSafe) {b : Fin 16} (mark : s.filledMarks[b] = true) :
    ((s.unclaimed b).claimArrival b).blocksSafe := by
  obtain ⟨apart, agrees, sequence⟩ := s.blocksSafe_iff.1 h
  have filled : s.rpw.blocks[b] = .filled := (agrees b).marked.2 mark
  have out : b ∉ s.rpw.freeList := fun free => nomatch filled.symm.trans ((agrees b).free.2 free)
  have idle : s.rpw.writer.map (·.block) ≠ some b := fun writes => nomatch filled.symm.trans ((agrees b).writing.2 writes)
  refine startWrite ((State.blocksSafe_iff _).2 ⟨?_, fun d => ?_, sequence⟩)
  · exact List.nodup_append.2 ⟨apart, List.nodup_singleton b, fun x old y new => by
      rintro rfl
      exact out (List.mem_singleton.1 new ▸ old)⟩
  · by_cases same : d = b
    · subst same
      exact .of_free (getElem_set_same ..) (List.mem_append_right _ List.mem_cons_self) idle (getElem_set_same ..)
        (Memory.readWord_writeWord ..)
    · have bytes := blockBase_apart same
      refine (agrees d).congr (getElem_set_other _ _ same) ?_ .rfl (getElem_set_other _ _ same) ?_
      · exact List.mem_append.trans (or_iff_left fun new => same (List.mem_singleton.1 new))
      · exact Memory.readWord_congr fun a low high => Memory.read_writeWord_off _ _ _ _ (by omega)

/-- Sequence numbers pass over 0 (R171). -/
theorem nextSequence_ne_zero (n : Word) : nextSequence n ≠ 0 := by
  unfold nextSequence
  split <;> bv_omega

/-- A write that completes fills its block (R170). -/
theorem endWrite (h : s.blocksSafe) : s.endWrite.blocksSafe := by
  obtain ⟨apart, agrees, sequence⟩ := s.blocksSafe_iff.1 h
  unfold State.endWrite
  split
  next j writes =>
    have writing : s.rpw.blocks[j.block] = .writing := (agrees j.block).writing.2 (by rw [writes]; rfl)
    have out : j.block ∉ s.rpw.freeList := fun free => nomatch writing.symm.trans ((agrees j.block).free.2 free)
    refine startWrite ((State.blocksSafe_iff _).2 ⟨apart, fun d => ?_, fun k => ?_⟩)
    · by_cases same : d = j.block
      · subst same
        refine .of_filled (getElem_set_same ..) out nofun (getElem_set_same ..) ?_
        exact fun claim => sequence j.frame.surface ((Memory.readWord_writeWord ..).symm.trans claim)
      · have bytes := blockBase_apart same
        have other : s.rpw.writer.map (·.block) ≠ some d := by
          rw [writes]
          exact fun e => same (Option.some.inj e).symm
        refine (agrees d).congr (getElem_set_other _ _ same) .rfl ⟨nofun, fun e => absurd e other⟩
          (getElem_set_other _ _ same) (Memory.readWord_congr fun a low high => ?_)
        exact (Memory.read_writeWord_off _ _ _ _ (by omega)).trans
          (j.read_writePart_off _ _ _ (by unfold inRange; omega))
    · show (s.rpw.nextSeq.set j.frame.surface _).get k ≠ 0
      by_cases same : k = j.frame.surface
      · subst same
        rw [PerSurface.get_set]
        exact nextSequence_ne_zero _
      · rw [PerSurface.get_set_ne _ same]
        exact sequence k
  next => exact h

/-- A frame that joins a held list lets the writer check (R168); another row touches no report. -/
theorem takeRow (h : s.blocksSafe) (k : Surface) (fresh : Bool) (instant : Word) (src : RowSource) (nodes : List Half) :
    (s.takeRow k fresh instant src nodes).1.blocksSafe := by
  unfold State.takeRow
  dsimp only
  split
  · unfold State.joinHeld
    refine startWrite (h.of_population ?_)
    exact State.discardIfFull_population (s.modSurf k fun y => { y with asm := .empty, cursor := 0 }) k
  · exact h.of_population rfl

theorem takeRows (k : Surface) (start : Word) (rowTime : Nat) (src : RowSource) (nodes : Nat → List Half) (n : Nat) :
    ∀ (i : Nat) (fresh : Bool) {s : State}, s.blocksSafe →
      (s.takeRows k start rowTime src nodes n i fresh).blocksSafe := by
  induction n with
  | zero => exact fun _ _ _ h => h
  | succ n ih => exact fun i _ _ h => ih (i + 1) _ (h.takeRow k _ _ src (nodes i))

theorem completeScan (h : s.blocksSafe) (r : BankRequest) (nodes : List Half) : (s.completeScan r nodes).blocksSafe := by
  unfold State.completeScan
  dsimp only
  generalize drawn : (if nodes.length < s.bank.scanRows * (s.surf r.surface).geo.cols then (s.draw).2 else s) = t
  have start : t.blocksSafe := by
    rw [← drawn]
    split
    · exact h.of_population rfl
    · exact h
  have rows := takeRows r.surface s.bank.scanStart (s.surf r.surface).geo.rowTime r.particulars.rowSource
    (rowNodes nodes (s.draw).1 (s.surf r.surface).geo.cols) s.bank.scanRows 0 true start
  refine rows.of_population ?_
  split <;> simp

theorem endScan (h : s.blocksSafe) (nodes : List Half) : (s.endScan nodes).blocksSafe := by
  unfold State.endScan
  split
  next r _ => exact (h.completeScan r nodes).of_population (by simp)
  next => exact h

end State.blocksSafe

/-! Host writes and resets (R4, R167). -/

/-- Both resets rebuild the population (R4, R175). -/
theorem blocksSafe_of_reset {s t : State} (h : t = s.powerOn ∨ t = s.softReset) : t.blocksSafe := by
  rcases h with rfl | rfl
  · exact State.reset_blocksSafe.of_population rfl
  · exact s.restart.rebuildBlocks_blocksSafe

theorem HostWritten.blocksSafe {s t : State} {a : Nat} {v : Word} (h : HostWritten s a v t) (hs : s.blocksSafe) :
    t.blocksSafe := by
  cases h with
  | discarded => exact hs
  | notices => exact hs
  | enables => exact hs
  | resets => exact blocksSafe_of_reset (.inr rfl)
  | free _ low =>
    refine hs.of_population (s.population_store fun b x inside => Memory.read_writeWord_off _ _ _ _ ?_)
    have := blockBase_le b
    unfold inRange at inside
    omega
  | cell c o _ _ inside =>
    refine hs.of_population (s.population_low fun x high => Memory.read_writeWord_off _ _ _ _ ?_)
    have := cellBase_le c
    omega
  | submits c =>
    refine hs.of_population (s.population_low fun x high => Memory.read_writeWord_off _ _ _ _ ?_)
    have := cellBase_le c
    omega
  | returns b _ mark => exact (hs.claimArrival mark).of_population (publish_population ..)

/-! Initialisation, and one TU (R4, R15, R169, R175). -/

theorem State.abandonCell_population (s : State) (c : Fin 16) : (s.abandonCell c).population = s.population :=
  State.population_low { s with cells := s.cells.set c .hostOwned } fun a high => s.abandonCell_read_off c a (by
    have := cellBase_le c
    unfold inRange
    omega)

/-- The blocks are rebuilt before the status area is written (R4). -/
theorem State.published_blocksSafe (s : State) : s.rebuildBlocks.writeStatusArea.blocksSafe :=
  s.rebuildBlocks_blocksSafe.of_population
    (s.rebuildBlocks.population_low fun a high => s.rebuildBlocks.writeStatusArea_read_off a (.inr high))

theorem State.blocksSafe.initialiseOn {s : State} (h : s.blocksSafe) : s.initialiseOn.blocksSafe := by
  have step : ∀ {s : State}, s.blocksSafe → s.initialiseStep.blocksSafe := fun {s} h => by
    unfold State.initialiseStep
    split
    next c _ _ => exact h.of_population (s.abandonCell_population c)
    next => exact s.published_blocksSafe
  have steps : ∀ n {s : State}, s.blocksSafe → (State.initialiseSteps n s).blocksSafe := fun n => by
    induction n with
    | zero => exact id
    | succ n ih => exact fun h => ih (step h)
  unfold State.initialiseOn
  split
  · exact h
  · exact steps _ (h.of_population rfl)

/-- A completion being written shows in its cell alone (R14). -/
theorem State.completionOn_population (s : State) : s.completionOn.population = s.population := by
  obtain ⟨n, m, shown, -, read⟩ := s.completionOn_spec
  rw [shown]
  refine State.population_low { s with free := n } fun a high => read a fun c _ _ inside => ?_
  have := cellBase_le c.cell
  unfold inRange at inside
  omega

/-- A report being written shows past its claim word alone (R169). -/
theorem State.reportOn_population (s : State) : s.reportOn.population = s.population := by
  obtain ⟨n, m, shown, -, read⟩ := s.reportOn_spec
  rw [shown]
  refine State.population_store { s with free := n } fun b a claim => read a fun j _ inside => ?_
  unfold inRange at claim inside
  by_cases same : b = j.block
  · subst same
    omega
  · have := blockBase_apart same
    omega

theorem State.blocksSafe.passTime {s : State} (h : s.blocksSafe) : s.passTime.blocksSafe := by
  have on : (State.initialiseOn { s with time := s.time + 1 }).blocksSafe := State.blocksSafe.initialiseOn h
  exact on.of_population ((State.reportOn_population _).trans (State.completionOn_population _))

/-! Commands. -/

section
variable {s t : State}

theorem blocksSafe_event {guard : Bool} {f : State → State} (h : event guard f s = .next t) (hs : s.blocksSafe)
    (same : (f s).population = s.population) : t.blocksSafe := by
  obtain rfl := next_inj h
  split
  · exact hs.of_population ((publish_population ..).trans same)
  · exact hs

theorem blocksSafe_decision {kind : Nat} {f : State → RequestRecord → State} (h : decision kind f s = .next t)
    (hs : s.blocksSafe) (same : ∀ r, (f s r).population = s.population) : t.blocksSafe := by
  obtain rfl := next_inj h
  split
  next r _ => exact hs.of_population ((publish_population ..).trans (same r))
  next => exact hs

/-- The end of an initialisation has rebuilt the blocks (R5, R175). -/
theorem blocksSafe_initialisationCompletion (h : execInitialisationCompletion s = .next t) (hs : s.blocksSafe) :
    t.blocksSafe := by
  obtain rfl := next_inj h
  split
  · exact hs
  · exact s.abandonCells.published_blocksSafe.of_population
      ((publish_population ..).trans s.initialised.becomeReady_population)

theorem blocksSafe_requestTake (h : execRequestTake s = .next t) (hs : s.blocksSafe) : t.blocksSafe := by
  obtain rfl := next_inj h
  split
  · cases queue : s.rqi.intake with
    | nil =>
      unfold State.take
      rw [queue]
      exact hs
    | cons cell rest =>
      obtain ⟨e, -, taken⟩ := State.take_spec queue
      rw [taken]
      exact hs
  · exact hs

/-- A completion's words lie in its cell (R13). -/
theorem blocksSafe_completionWrite (h : execCompletionWrite s = .next t) (hs : s.blocksSafe) : t.blocksSafe := by
  unfold execCompletionWrite at h
  split at h
  next c _ _ =>
    obtain rfl := next_inj h
    refine hs.of_population ((State.serveCompletions_population _).trans ?_)
    refine State.population_low { s with cells := s.cells.set c.cell .hostOwned } fun a high => ?_
    have := cellBase_le c.cell
    exact (Memory.read_writeWord_off _ _ _ _ (by omega)).trans
      (c.read_words_off _ _ (fun _ => id) a (by unfold inRange; omega))
  all_goals
    obtain rfl := next_inj h
    exact hs

end

theorem exec_blocksSafe {c : Instr} {s t : State} (hs : s.blocksSafe) (h : exec c s = .next t) : t.blocksSafe := by
  have port : ∀ {a v}, c.portWrite = some (a, v) → t.blocksSafe := fun {a v} hw => by
    obtain rfl := next_inj ((exec_portWrite hw s).symm.trans h)
    exact (s.hostWrite_cases a v).blocksSafe hs
  cases c with
  | powerOnReset => exact blocksSafe_of_reset (.inl (next_inj h).symm)
  | softReset value => exact port rfl
  | noticeWrite value => exact port rfl
  | noticeMaskWrite value => exact port rfl
  | registerWriteDiscarded address value => exact port rfl
  | hostWorkMemoryWrite address value => exact port rfl
  | cellCodeWordWrite cell value => exact port rfl
  | claimReturn block => exact port rfl
  | initialisationCompletion => exact blocksSafe_initialisationCompletion h hs
  | requestTake => exact blocksSafe_requestTake h hs
  | completionWrite => exact blocksSafe_completionWrite h hs
  | setOffers => exact blocksSafe_decision h hs s.decideSetOffers_population
  | negotiate => exact blocksSafe_decision h hs s.decideNegotiate_population
  | admitPipe => exact blocksSafe_decision h hs s.decideAdmit_population
  | pipeRestart =>
    obtain rfl := next_inj h
    split
    next r _ => exact hs.of_population (s.decidePipeRestart_population r)
    next => exact hs
  | setQuiet => exact blocksSafe_decision h hs s.decideSetQuiet_population
  | urgentBand => exact blocksSafe_decision h hs s.decideUrgentBand_population
  | frameNow => exact blocksSafe_decision h hs s.decideFrameNow_population
  | setReference => exact blocksSafe_decision h hs s.decideSetReference_population
  | setSurface => exact blocksSafe_decision h hs s.decideSetSurface_population
  | surfaceEnable => exact blocksSafe_decision h hs s.decideSurfaceEnable_population
  | setBank => exact blocksSafe_decision h hs s.decideSetBank_population
  | setEventPins => exact blocksSafe_decision h hs s.decideSetEventPins_population
  | clearFaults => exact blocksSafe_decision h hs s.decideClearFaults_population
  | messageRejected p bytes =>
    obtain rfl := next_inj h
    split
    next m _ => exact hs.of_population ((publish_population ..).trans (s.receive_population p m))
    next => exact hs
  | list p modes =>
    unfold exec execList at h
    exact blocksSafe_event h hs (s.receiveList_population p modes)
  | ack p e v =>
    unfold exec execAck at h
    exact blocksSafe_event h hs (s.receiveAck_population p e v)
  | nak p =>
    unfold exec execNak at h
    exact blocksSafe_event h hs (s.receiveNak_population p)
  | panelFault p code =>
    unfold exec execPanelFault at h
    exact blocksSafe_event h hs (s.receivePanelFault_population p code)
  | messageSent p =>
    unfold exec execMessageSent at h
    exact blocksSafe_event h hs (s.endSending_population p)
  | probeTimeout p =>
    unfold exec execProbeTimeout at h
    exact blocksSafe_event h hs (s.probeExpired_population p)
  | selectTimeout p =>
    unfold exec execSelectTimeout at h
    exact blocksSafe_event h hs (by simp)
  | frameAckTimeout p =>
    unfold exec execFrameAckTimeout at h
    exact blocksSafe_event h hs (by simp)
  | quietIntervalExpiry p =>
    unfold exec execQuietIntervalExpiry at h
    exact blocksSafe_event h hs (by simp)
  | alignedStart p =>
    unfold exec execAlignedStart at h
    exact blocksSafe_event h hs (by simp)
  | alignmentDeadline p =>
    unfold exec execAlignmentDeadline at h
    exact blocksSafe_event h hs (by simp)
  | burstStart p =>
    unfold exec execBurstStart at h
    exact blocksSafe_event h hs (State.releaseSlot_population ..)
  | windowStart =>
    unfold exec execWindowStart at h
    exact blocksSafe_event h hs s.startWindow_population
  | planPoint p =>
    unfold exec execPlanPoint at h
    exact blocksSafe_event h hs (s.startBlank_population p)
  | trimStart p =>
    unfold exec execTrimStart at h
    exact blocksSafe_event h hs rfl
  | trimEnd p =>
    unfold exec execTrimEnd at h
    exact blocksSafe_event h hs (s.endTrim_population p)
  | stretchLimit p =>
    unfold exec execStretchLimit at h
    exact blocksSafe_event h hs (by simp)
  | silenceLimit p =>
    unfold exec execSilenceLimit at h
    exact blocksSafe_event h hs (s.loseSource_population p id)
  | refsyncEdge =>
    unfold exec execRefsyncEdge at h
    exact blocksSafe_event h hs s.takeEdge_population
  | generatedPulse =>
    unfold exec execGeneratedPulse at h
    exact blocksSafe_event h hs s.generatePulse_population
  | presenceAbsent =>
    unfold exec execPresenceAbsent at h
    exact blocksSafe_event h hs rfl
  | padTick =>
    unfold exec execPadTick at h
    exact blocksSafe_event h hs s.tickPad_population
  | retuneEnd =>
    unfold exec execRetuneEnd at h
    exact blocksSafe_event h hs s.endRetune_population
  | scanCompletion nodes =>
    obtain rfl := next_inj h
    split
    · exact hs.endScan nodes
    · exact hs
  | requestExpiry k =>
    unfold exec execRequestExpiry at h
    exact blocksSafe_event h hs (s.expireRequest_population k)
  | writeCompletion =>
    obtain rfl := next_inj h
    split
    · exact hs.endWrite.of_population (publish_population ..)
    · exact hs
  | pinPulseEnd pin =>
    unfold exec execPinPulseEnd at h
    exact blocksSafe_event h hs rfl

/-- Settles O56: a step leaves the blocks alone, or it begins or completes a write, takes a claim back or rebuilds the
population, and each of these keeps every block in the state that its owners say. -/
theorem stepsKeepBlocksSafe : Obligations.StepsKeepBlocksSafe := by
  unfold Obligations.StepsKeepBlocksSafe
  intro s t safe h
  obtain ⟨-, -, -, -, -, blocks, -, -⟩ := safe
  rcases step_exec h with ⟨c, pending, n, he⟩ | ⟨n, rfl⟩
  · exact exec_blocksSafe (s := { s with pending := pending, free := n }) blocks he
  · exact State.blocksSafe.passTime (s := { s with free := n }) blocks

end Sys2Proof.Machine
end

section
/-! PROOF. A completed write fills its block (R166, R168 to R171, 12.5). -/

namespace Sys2Proof.Machine

/-! The bytes of a report (12.5). -/

theorem TouchRow.bytes_length (r : TouchRow) : r.bytes.length = 6 := rfl

@[simp] theorem WriteJob.header_length (j : WriteJob) : j.header.length = 44 := padTo_length _ _

theorem rowBytes_length (rows : List TouchRow) : (rows.flatMap TouchRow.bytes).length = 6 * rows.length := by
  simp [List.length_flatMap, TouchRow.bytes_length, Nat.mul_comm]

/-- The bytes of node values, each a half word (R187). -/
def nodeBytes (values : List Half) : List Byte := values.flatMap fun v => u16 v.toNat

theorem nodeBytes_length (values : List Half) : (nodeBytes values).length = 2 * values.length := by
  simp [nodeBytes, List.length_flatMap, u16, Nat.mul_comm]

theorem u16_half (v : Half) : u16 v.toNat = [v.extractLsb' 0 8, v.extractLsb' 8 8] := by
  have low : BitVec.ofNat 8 v.toNat = v.extractLsb' 0 8 := BitVec.eq_of_toNat_eq (by simp)
  have high : BitVec.ofNat 8 (v.toNat / 256) = v.extractLsb' 8 8 :=
    BitVec.eq_of_toNat_eq (by simp [Nat.shiftRight_eq_div_pow])
  unfold u16
  rw [low, high]

theorem nodeBytes_getD {values : List Half} {i : Nat} {v : Half} (at_i : values[i]? = some v) :
    (nodeBytes values).getD (2 * i) 0 = v.extractLsb' 0 8 ∧ (nodeBytes values).getD (2 * i + 1) 0 = v.extractLsb' 8 8 := by
  induction values generalizing i with
  | nil => exact nomatch at_i
  | cons w values ih =>
    have bytes : nodeBytes (w :: values) = w.extractLsb' 0 8 :: w.extractLsb' 8 8 :: nodeBytes values :=
      congrArg (· ++ nodeBytes values) (u16_half w)
    rw [bytes]
    cases i with
    | zero =>
      obtain rfl := Option.some.inj at_i
      exact ⟨rfl, rfl⟩
    | succ i => exact ih at_i

/-- A report within the limits of its block is written whole (12.5). -/
structure WriteJob.Fits (j : WriteJob) : Prop where
  rows  : j.frame.rowData.length ≤ 64
  nodes : (j.frame.rowData.flatMap (·.nodes)).length ≤ 1024

namespace WriteJob.Fits
variable {j : WriteJob}

theorem rowTable (h : j.Fits) : j.rowTable = j.frame.rowData.flatMap TouchRow.bytes :=
  List.take_of_length_le (by have := h.rows; rw [rowBytes_length]; omega)

theorem nodeArea (h : j.Fits) : j.nodeArea = nodeBytes (j.frame.rowData.flatMap (·.nodes)) := by
  have area : (j.frame.rowData.flatMap fun r => r.nodes.flatMap fun v => u16 v.toNat) =
    nodeBytes (j.frame.rowData.flatMap (·.nodes)) := List.flatMap_assoc.symm
  unfold WriteJob.nodeArea
  rw [area]
  exact List.take_of_length_le (by have := h.nodes; rw [nodeBytes_length]; omega)

end WriteJob.Fits

theorem firstWords_all {n : Nat} {bs : List Byte} (enough : wordCount bs ≤ n) : firstWords n bs = bs :=
  List.take_of_length_le (by unfold wordCount at enough; omega)

/-- All the words of a report are its header, its row table and its node area. -/
theorem WriteJob.writePart_size (j : WriteJob) (m : Memory) : j.writePart j.size m =
    ((m.writeBytes (blockBase j.block + 0x004) j.header).writeBytes (blockBase j.block + 0x030) j.rowTable).writeBytes
      (blockBase j.block + 0x1B0) j.nodeArea := by
  unfold WriteJob.writePart WriteJob.size
  dsimp only
  rw [firstWords_all (by omega), firstWords_all (by omega), firstWords_all (by omega)]

/-- Work Memory once a report stands in its block with its claim word (R170). -/
def WriteJob.written (j : WriteJob) (m : Memory) (claim : Word) : Memory :=
  (j.writePart j.size m).writeWord (blockBase j.block) claim

section
variable (j : WriteJob) (m : Memory) (claim : Word)

theorem WriteJob.rowTable_length_le : j.rowTable.length ≤ 384 := List.length_take_le ..

theorem WriteJob.readWord_written : (j.written m claim).readWord (blockBase j.block) = claim :=
  Memory.readWord_writeWord ..

theorem WriteJob.readBytes_written_header : (j.written m claim).readBytes (blockBase j.block + 4) 44 = j.header := by
  have rows := j.rowTable_length_le
  unfold WriteJob.written
  rw [j.writePart_size, Memory.writeWord, Memory.readBytes_writeBytes_off _ _ _ _ _ (by rw [wordBytes_length]; omega),
    Memory.readBytes_writeBytes_off _ _ _ _ _ (by omega), Memory.readBytes_writeBytes_off _ _ _ _ _ (by omega)]
  exact j.header_length ▸ Memory.readBytes_writeBytes _ _ _

theorem WriteJob.readBytes_written_rows :
    (j.written m claim).readBytes (blockBase j.block + 0x30) j.rowTable.length = j.rowTable := by
  have rows := j.rowTable_length_le
  unfold WriteJob.written
  rw [j.writePart_size, Memory.writeWord, Memory.readBytes_writeBytes_off _ _ _ _ _ (by rw [wordBytes_length]; omega),
    Memory.readBytes_writeBytes_off _ _ _ _ _ (by omega)]
  exact Memory.readBytes_writeBytes ..

theorem WriteJob.read_written_nodes {i : Nat} (inside : i < j.nodeArea.length) :
    (j.written m claim).read (blockBase j.block + 0x1B0 + i) = j.nodeArea.getD i 0 := by
  unfold WriteJob.written
  rw [j.writePart_size, Memory.read_writeWord_off _ _ _ _ (by omega), Memory.read_writeBytes, if_pos (by omega),
    Nat.add_sub_cancel_left]

/-- Outside the header, the rows and the nodes a report stores nothing. -/
theorem WriteJob.read_written_off {a : Nat} (head : ¬ inRange a (blockBase j.block) (0x30 + j.rowTable.length))
    (nodes : ¬ inRange a (blockBase j.block + 0x1B0) j.nodeArea.length) :
    (j.written m claim).read a = m.read a := by
  unfold inRange at head nodes
  unfold WriteJob.written
  rw [j.writePart_size, Memory.read_writeWord_off _ _ _ _ (by omega), Memory.read_writeBytes_off _ _ _ _ nodes,
    Memory.read_writeBytes_off _ _ _ _ (by omega), Memory.read_writeBytes_off _ _ _ _ (by rw [j.header_length]; omega)]

end

/-! The event (R170, R171). -/

theorem nextSequence_eq (n : Word) : nextSequence n = if n.toNat + 1 = 2 ^ 32 then 1 else n + 1 := by
  have last : n = 0xFFFFFFFF#32 ↔ n.toNat + 1 = 2 ^ 32 := by bv_omega
  unfold nextSequence
  simp only [last]

/-- A start of the writer passes by Work Memory and all else that `bare` blanks. -/
theorem State.startWrite_bare (s : State) : s.startWrite.bare = s.bare.startWrite := by
  have head : s.bare.oldestHead = s.oldestHead := rfl
  have rpw : s.bare.rpw = s.rpw := rfl
  have held : ∀ k, (s.bare.surf k).held = (s.surf k).held := fun k => by cases k <;> rfl
  unfold State.startWrite
  rw [head, rpw]
  split
  next k _ _ _ =>
    rw [held]
    split
    · rfl
    · cases k <;> rfl
  · rfl

/-- Settles O45: the report's bytes by its parts, and the rest by the writer's check of the state they leave. -/
theorem writesFillTheBlock : Obligations.WritesFillTheBlock := by
  unfold Obligations.WritesFillTheBlock
  intro s j writes ends rows nodes k seq base u
  have fits : j.Fits := ⟨rows, nodes⟩
  have due : s.writeDue = true := by
    simp [State.writeDue, State.isNow, writes, ends]
  have executed : exec .writeCompletion s = .next (publish s s.endWrite) := congrArg Host.Outcome.next (if_pos due)
  have completed : s.endWrite = State.startWrite { u with mem := j.written s.mem seq } := by
    simp only [State.endWrite, writes]
    show State.startWrite _ = _
    simp only [nextSequence_eq]
    rfl
  have versions : SameVersions s s.endWrite := (Within.endWrite (F := Set.univ) trivial).versions
  have stored : s.endWrite.mem = j.written s.mem seq := by
    rw [completed]
    exact (State.startWrite_keeps _).2
  have block : ∀ a, base ≤ a → (publish s s.endWrite).mem.read a = (j.written s.mem seq).read a := fun a inside => by
    have high : 0x2000 ≤ base := Nat.le_add_right ..
    rw [← stored]
    exact ((Ordinary.refl s.endWrite).publish s).far a (.inr (high.trans inside))
  have rowBytes : j.rowTable.length = 6 * j.frame.rowData.length := by rw [fits.rowTable, rowBytes_length]
  have nodeCount : j.nodeArea.length = 2 * (j.frame.rowData.flatMap (·.nodes)).length := by
    rw [fits.nodeArea, nodeBytes_length]
  refine ⟨_, executed, ?_, ?_, ?_, ?_, fun i v at_i => ?_, fun a head area unchanged => ?_⟩
  · rw [publish_bare, completed, ← State.startWrite_eq, State.startWrite_bare, State.startWrite_bare]
    rfl
  · exact (Memory.readWord_congr fun a low _ => block a low).trans (j.readWord_written s.mem seq)
  · exact (Memory.readBytes_congr fun a low _ => block a (by omega)).trans (j.readBytes_written_header s.mem seq)
  · rw [← fits.rowTable, ← rowBytes]
    exact (Memory.readBytes_congr fun a low _ => block a (by omega)).trans (j.readBytes_written_rows s.mem seq)
  · have inside : i < (j.frame.rowData.flatMap (·.nodes)).length := (List.getElem?_eq_some_iff.1 at_i).1
    obtain ⟨low, high⟩ := nodeBytes_getD at_i
    rw [← fits.nodeArea] at low high
    rw [block (base + 0x1B0 + 2 * i) (by omega), block (base + 0x1B0 + 2 * i + 1) (by omega), ← low, ← high]
    exact ⟨j.read_written_nodes s.mem seq (i := 2 * i) (by omega), j.read_written_nodes s.mem seq (i := 2 * i + 1) (by omega)⟩
  · rw [publish_read s _ versions a unchanged, stored]
    exact j.read_written_off s.mem seq (rowBytes ▸ head) (nodeCount ▸ area)

end Sys2Proof.Machine
end
